-- ==== Sys2Proof/Word.lean ====
section
/-! DEFINITION. The word types of the AS740 and the table type every numbered set of records is held in.

The manual's numbers (minutes, ticks, zones, credential numbers, counts) are counts and indexes, so they are `Nat`.
A bit vector stands only for what the manual treats as bits: a byte of a frame, a set of zones carried as two bytes,
a notice filter, the CRC register. -/

namespace Sys2Proof

/-- One byte of a station frame or the data bits of one loop character (R156, R200). -/
abbrev Byte := BitVec 8

/-- The register of the station frame CRC (R201). -/
abbrev Word16 := BitVec 16

/-- A set of zones: bit `z` stands for zone `z`, and bit 0 is 0 (R200). -/
abbrev ZoneSet := BitVec 16

/-- Records numbered by a key: entries with keys rising, an unlisted key holding the default of its table. -/
abbrev Tab (α : Type) := List (Nat × α)

end Sys2Proof
end

