-- ==== Sys2Proof/Config.lean ====
section
/-! DEFINITION. The numbers the manual fixes for the part, and the values it leaves open, which are free. -/

namespace Sys2Proof.Config

/-- Minutes in a week; the time of week is 0..10079 (00, "Numbering and ranges"). -/
def weekMinutes : Nat := 10080
/-- Minutes in a day (R8). -/
def dayMinutes : Nat := 1440
/-- Ticks in a minute (R8). -/
def minuteTicks : Nat := 600
/-- Ticks in a week (R9). -/
def weekTicks : Nat := 6048000
/-- Zones are numbered 1..15, zone 0 being the exterior. -/
def zoneCount : Nat := 16
/-- Doors 0..31. -/
def doorCount : Nat := 32
/-- Suppression groups 0..3. -/
def groupCount : Nat := 4
/-- Node addresses 1..60. -/
def nodeMax : Nat := 60
/-- Store slots 0..511 (R64). -/
def storeSlots : Nat := 512
/-- Roster slots 0..127 (R16). -/
def rosterSlots : Nat := 128
/-- Grants 1..16 (R89). -/
def grantMax : Nat := 16
/-- Records of the audit log (R101). -/
def auditMax : Nat := 256
/-- Records of the alarm queue (R135). -/
def alarmMax : Nat := 32
/-- Entries of the poll list (R164). -/
def pollListMax : Nat := 96
/-- Entries of the urgent queue (R165). -/
def urgentMax : Nat := 16
/-- Notices of a port's queue (R192). -/
def noticeMax : Nat := 32
/-- Pending BUSY replies of a port (R190). -/
def busyMax : Nat := 4
/-- Ticks of silence after which the fire link is LOST (R198). -/
def linkSilence : Nat := 100
/-- Ticks from the last hearing of a pendant to the end of its cause (R141). -/
def pendantSilence : Nat := 30
/-- Ticks the scrubber waits before its forced turn (R71). -/
def forcedTurnWait : Nat := 20
/-- The lowest point: node 1, circuit 0 (R181). -/
def pointMin : Nat := 16
/-- The highest point: node 60, circuit 15 (R181). -/
def pointMax : Nat := 975
/-- The greatest valid credential number (00). -/
def credentialMax : Nat := 16777214
/-- The value at which the 16-bit counters saturate (R66, R107, R177, R178). -/
def count16 : Nat := 65535

/-- FREE VALUE. The cause that a group notice "state changed" carries where R132's list of causes names none: at the
evaluation of a first full pass (argument 0) and at a return from SEAL-WAIT by a recompute (argument 1). Log 20. -/
opaque unstatedCause : Nat → Nat

/-- FREE VALUE. The byte that stands for a condition, holding or not, in a reply or a notice whose rule gives no list of
names for it (a zone's lockdown flag, a door's known-closed value): R200 gives positions in a list, and no code to these.
Log 22. -/
opaque truthCode : Bool → Nat

/-- FREE VALUE. The byte that stands for "none" in the group field of a zone record, beside 0..3 for the groups (R1).
Log 22. -/
opaque noGroupCode : Nat

/-- FREE VALUE. The code byte of the result ZONE-FULL (R29), which the table of result codes does not list. Log 23. -/
opaque zoneFullCode : Nat

end Sys2Proof.Config
end

