-- ==== Sys2Proof/Syntax.lean ====
section
/-! DEFINITION. The commands of the AS740: one constructor of `Instr` for each row of spec/opcode_table.json.

A request row is the valid REQUEST frame that carries the request (R188): a `Head` and the request's parameters, each
a number as the frame carries it, so that every value a master may send, in range or not, is a command. An event row
carries what the event brings with it: a reply, a kind of fault, or what a read or an interrupted write turned out to
be (log 5). -/

namespace Sys2Proof

/-- The station ports A, B and C (R186). -/
inductive Port where
  | access | fire | console
  deriving DecidableEq, Repr

/-- What every REQUEST frame carries beside its code and parameters: the port it arrived on, its tag, and whether its
parameters have the length of the request's layout (R188, check 4). Where they do not, the values are not looked at. -/
structure Head where
  port : Port
  tag : Nat
  sized : Bool
  deriving DecidableEq, Repr

/-- The whole record of a Write Credential, as offered (R64): class and right are positions in the lists of R64. -/
structure RawCredential where
  number : Nat
  cls : Nat
  perms : ZoneSet
  right : Nat
  pendant : Nat
  enabled : Bool
  exempt : Bool
  guarded : Bool
  deriving DecidableEq, Repr

/-- One field change of a Modify Credential (R79), the fields in the order of the table of R64; class and right are
positions. -/
inductive FieldChange where
  | number (n : Nat)
  | cls (k : Nat)
  | perms (zones : ZoneSet)
  | right (k : Nat)
  | pendant (n : Nat)
  | enabled (yes : Bool)
  | exempt (yes : Bool)
  | guarded (yes : Bool)
  | undefined (field : Nat)
  deriving DecidableEq, Repr

/-- The fields of a zone record as offered (R1). -/
structure RawZone where
  tracked : Bool
  cls : Nat
  schedule : Nat
  group : Option Nat
  capacity : Nat
  interval : Nat
  grace : Nat
  deriving DecidableEq, Repr

/-- One window of a schedule as offered (R5): bit `d` of the mask marks day `d`, Monday being day 0. -/
structure RawWindow where
  mask : Byte
  start : Nat
  stop : Nat
  deriving DecidableEq, Repr

/-- The fields of a door record as offered (R35). -/
structure RawDoor where
  sideA : Nat
  sideB : Nat
  cls : Nat
  node : Nat
  passback : Nat
  u : Nat
  h : Nat
  w : Nat
  failMode : Nat
  deriving DecidableEq, Repr

/-- The fields of a node record as offered (R153): zone 0 stands for an absent zone. -/
structure RawNode where
  type : Nat
  zone : Nat
  functions : List Nat
  deriving DecidableEq, Repr

/-- One entry of a group record's detector list or warning output list: a point and its mark (R105). -/
structure RawPoint where
  point : Nat
  mark : Nat
  deriving DecidableEq, Repr

/-- The fields of a group record as offered (R105). -/
structure RawGroup where
  zones : ZoneSet
  b : Nat
  a : Nat
  c : Nat
  dmax : Nat
  rmin : Nat
  bm : Nat
  s : Nat
  p : Nat
  detectors : List RawPoint
  pair : Nat
  warnings : List RawPoint
  deriving DecidableEq, Repr

/-- The settings of the loop timing record as offered (R171). -/
structure RawTiming where
  tr : Nat
  r : Nat
  l : Nat
  g : Nat
  n : Nat
  k : Nat
  deriving DecidableEq, Repr

/-- The divider settings N and K of one line (R172, R195). -/
structure Rate where
  n : Nat
  k : Nat
  deriving DecidableEq, Repr

/-- The kind and contents of a Write Configuration Record, kinds in the order of the table of section 11.1 (R202). -/
inductive RawRecord where
  | zone (r : RawZone)
  | schedule (windows : List RawWindow)
  | door (r : RawDoor)
  | node (r : RawNode)
  | group (r : RawGroup)
  | pollList (nodes : List Nat)
  | loopTiming (r : RawTiming)
  | partTimers (scrub escalation : Nat)
  | portRates (a b c : Rate)
  | accessWindow (low high : Nat)
  | undefined (kind : Nat)
  deriving DecidableEq, Repr

/-- What the check of a store slot against its check code finds (R66). -/
inductive ReadCheck where
  | clean | single | double
  deriving DecidableEq, Repr

/-- What an interrupted nonvolatile write leaves (R83, R203, R206): the old contents, the new, or contents whose check
does not hold. -/
inductive WriteFate where
  | old | new | mixed
  deriving DecidableEq, Repr

/-- What the writes in progress leave when power goes: the configuration region, the agent-spent cells named, and the
store slot whose operation holds the store. A cell not named keeps its old contents. -/
structure Interrupted where
  config : WriteFate
  cells : List (Nat × WriteFate)
  slot : WriteFate
  deriving DecidableEq, Repr

/-- The slots whose check at the load is not clean (R84). -/
structure LoadReport where
  checks : List (Nat × ReadCheck)
  deriving DecidableEq, Repr

/-- The nonvolatile write that has persisted (R189, R206): the configuration region with the Console Port's request,
or the agent-spent cell of a group, with the Rearm that wrote it if one did. -/
inductive NvWrite where
  | region
  | cell (group : Nat)
  deriving DecidableEq, Repr

/-- A reading of a field circuit (R106, R154). -/
inductive Reading where
  | normal | active | openFault | shortFault
  deriving DecidableEq, Repr

/-- The value of an Override Set (R183): ON, OFF, or any other. -/
inductive SwitchValue where
  | on | off | other
  deriving DecidableEq, Repr

/-- The form of a Set Closure Day (R10): set, clear, or any other. -/
inductive ClosureForm where
  | set | clear | other
  deriving DecidableEq, Repr

/-- The sides of a door, and of its readers and exit buttons (R35, R37). -/
inductive Side where
  | a | b
  deriving DecidableEq, Repr

/-- A presentation as a door node queues it (R40, R159). -/
structure Presentation where
  credential : Nat
  side : Side
  duress : Bool
  deriving DecidableEq, Repr

/-- The queued events of a READY reply, under the reply's event form (R159, R200). -/
inductive LoopEvents where
  | presentations (es : List Presentation)
  | reports (pendants : List Nat)
  deriving DecidableEq, Repr

/-- A reply of the polled node that passes every test of R159 but those that depend on the command sent: READY with
16 circuit readings and events, READY with one data character (the echo of a TEST), or BUSY. -/
inductive LoopReply where
  | ready (toggle : Bool) (readings : List Reading) (events : LoopEvents)
  | echo (byte : Byte)
  | busy
  deriving DecidableEq, Repr

/-- The faults of a received loop character (R157). -/
inductive CharFault where
  | parity | framing | overrun
  deriving DecidableEq, Repr

/-- Why a whole reply fails its tests (R159), a faulty character or a timeout apart. -/
inductive ReplyFault where
  | firstMark | address | laterMark | count | kind | byteSum | tooShort | notWholeEvents | tooManyEvents | testReply
  deriving DecidableEq, Repr

/-- How the TEST exchange that fills the window ends: GOOD with its echo, or FAILED (R177, R178). -/
inductive TestEnd where
  | good (echo : Byte)
  | failed
  deriving DecidableEq, Repr

/-- The commands of the part: the rows of spec/opcode_table.json, in the table's order. -/
inductive Instr where
  | readStatus (h : Head)
  | readZone (h : Head) (zone : Nat)
  | readDoor (h : Head) (door : Nat)
  | readGroup (h : Head) (group : Nat)
  | readRoster (h : Head) (first filter : Nat)
  | readAlarmQueue (h : Head) (first : Nat)
  | readPoint (h : Head) (point : Nat)
  | readCredential (h : Head) (slot : Nat)
  | setNoticeFilter (h : Head) (categories : Byte)
  | writeCredential (h : Head) (slot : Nat) (record : RawCredential)
  | eraseCredential (h : Head) (slot : Nat)
  | modifyCredential (h : Head) (slot : Nat) (changes : List FieldChange)
  | remoteRelease (h : Head) (door : Nat)
  | pointSet (h : Head) (point : Nat)
  | pointClear (h : Head) (point : Nat)
  | pointToggle (h : Head) (point : Nat)
  | readAudit (h : Head)
  | confirmFire (h : Head) (group : Nat)
  | panelHold (h : Head) (group : Nat)
  | panelResume (h : Head) (group : Nat)
  | overrideHold (h : Head) (group : Nat)
  | lockout (h : Head) (group : Nat)
  | liftLockout (h : Head) (group : Nat)
  | declareClear (h : Head) (group : Nat)
  | rearm (h : Head) (group : Nat)
  | setAccessWindow (h : Head) (low high : Nat)
  | setTime (h : Head) (minute : Nat)
  | setClosureDay (h : Head) (form : ClosureForm)
  | lockdownZone (h : Head) (zone : Nat)
  | liftLockdown (h : Head) (zone : Nat)
  | grantEscort (h : Head) (zone escort duration entrants : Nat)
  | revokeGrant (h : Head) (grant : Nat)
  | moveRosterEntry (h : Head) (slot zone : Nat)
  | removeRosterEntry (h : Head) (slot : Nat)
  | confirmZoneClear (h : Head) (zone : Nat)
  | acknowledgeAlarm (h : Head) (number : Nat)
  | clearAlarm (h : Head) (number : Nat)
  | startLoopTest (h : Head) (node window : Nat)
  | stopLoopTest (h : Head)
  | readLoopTest (h : Head)
  | overrideSet (h : Head) (point : Nat) (value : SwitchValue)
  | overrideClear (h : Head) (point : Nat)
  | writeConfigurationRecord (h : Head) (index : Nat) (record : RawRecord)
  | readConfigurationRecord (h : Head) (kind index : Nat)
  | restart (h : Head)
  | unknownRequest (h : Head) (code : Nat)
  | nonRequestFrame (port : Port)
  | discardedFrame (port : Port) (bytes : List Byte)
  | frameGap (port : Port)
  | receiveCharacterFault (port : Port)
  | lineBreak (port : Port)
  | transmitterFrameEnd (port : Port)
  | fireLinkLost
  | powerOn (load : LoadReport)
  | resetAsserted (left : Interrupted)
  | powerLoss (left : Interrupted)
  | configurationWritePersisted (write : NvWrite)
  | minuteStep
  | grantExpiry (grant : Nat)
  | checkInDeadlineReached (slot : Nat)
  | graceEnd (slot : Nat)
  | unlockTimeExpiry (door : Nat)
  | openTimeExpiry (door : Nat)
  | pairWindowExpiry (door : Nat)
  | countdownTick (group : Nat)
  | countdownEnd (group : Nat)
  | sealTimerExpiry (group : Nat)
  | pulseTimerExpiry (group : Nat)
  | escalationTimerExpiry (number : Nat)
  | silenceTimerExpiry (number : Nat)
  | scrubIntervalExpiry
  | forcedTurn
  | storeGrant
  | credentialLookupComplete (check : ReadCheck)
  | pendantLookupComplete (check : ReadCheck)
  | readCredentialComplete (check : ReadCheck)
  | writeCredentialComplete
  | eraseCredentialComplete
  | modifyCredentialComplete (check : ReadCheck)
  | scrubStepComplete (check : ReadCheck)
  | goodReply (reply : LoopReply)
  | replyTimeout
  | faultyCharacter (fault : CharFault)
  | retry
  | loopTestWindowEnd (outcome : TestEnd)
  | attemptFailsOnReply (fault : ReplyFault)
  deriving DecidableEq, Repr

end Sys2Proof
end

