-- ==== Sys2Proof/Decode.lean ====
section
/-! DEFINITION. From bits to commands. No row of spec/opcode_table.json has bits: the part takes frames and characters,
so the words of the table spell no command. What the part takes is a station frame, and `decodeFrame` gives the command
that the body of a valid frame is (R187, R188, R200). -/

namespace Sys2Proof

/-- The command that a word spells by the table's bits: none, since no row has bits. -/
def decodeTableWord (_nbits _w : Nat) : Option Instr := none

/-! ### Values of a frame (R200) -/

/-- A value of so many bytes, most significant byte first, and the bytes after it. -/
def readNat : Nat → Nat → List Byte → Option (Nat × List Byte)
  | 0, acc, bs => some (acc, bs)
  | _ + 1, _, [] => none
  | n + 1, acc, b :: bs => readNat n (acc * 256 + b.toNat) bs

/-- Values of the widths given, and the bytes after them. -/
def readFields : List Nat → List Byte → Option (List Nat × List Byte)
  | [], bs => some ([], bs)
  | w :: ws, bs =>
    match readNat w 0 bs with
    | none => none
    | some (v, rest) => (readFields ws rest).map fun r => (v :: r.1, r.2)

/-- So many items of the widths given, and the bytes after them. -/
def readItems : Nat → List Nat → List Byte → Option (List (List Nat) × List Byte)
  | 0, _, bs => some ([], bs)
  | n + 1, ws, bs =>
    match readFields ws bs with
    | none => none
    | some (v, rest) => (readItems n ws rest).map fun r => (v :: r.1, r.2)

/-- A list sent with its count ahead (log 22), and the bytes after it. -/
def readList (ws : List Nat) : List Byte → Option (List (List Nat) × List Byte)
  | [] => none
  | n :: bs => readItems n.toNat ws bs

/-- Values of the widths given and nothing after them: parameters of the layout's length (R188, check 4). -/
def readWhole (ws : List Nat) (bs : List Byte) : Option (List Nat) :=
  match readFields ws bs with
  | some (vs, []) => some vs
  | _ => none

/-- Yes or no from its byte, its place in the list (R1, R64, R200). A byte that is neither place is taken as no: the
model's choice (log 50). -/
def truthOf (n : Nat) : Bool := n == 0

/-- ON or OFF (R183), by its place in the list. -/
def switchOf (n : Nat) : SwitchValue :=
  match n with
  | 0 => .on
  | 1 => .off
  | _ => .other

/-- Set or clear (R10), by its place in the list. -/
def closureOf (n : Nat) : ClosureForm :=
  match n with
  | 0 => .set
  | 1 => .clear
  | _ => .other

/-- The value at a place of a list of values. -/
def valueAt (vs : List Nat) (i : Nat) : Nat := vs[i]?.getD 0

/-! ### The contents of a Write Configuration Record -/

def pointOf (vs : List Nat) : RawPoint := ⟨valueAt vs 0, valueAt vs 1⟩

def windowAt (vs : List Nat) (i : Nat) : RawWindow :=
  ⟨BitVec.ofNat 8 (valueAt vs (3 * i)), valueAt vs (3 * i + 1), valueAt vs (3 * i + 2)⟩

def zoneFrom (vs : List Nat) : RawZone :=
  let g := valueAt vs 3
  ⟨truthOf (valueAt vs 0), valueAt vs 1, valueAt vs 2, if g = Config.noGroupCode then none else some g, valueAt vs 4,
    valueAt vs 5, valueAt vs 6⟩

def doorFrom (vs : List Nat) : RawDoor :=
  ⟨valueAt vs 0, valueAt vs 1, valueAt vs 2, valueAt vs 3, valueAt vs 4, valueAt vs 5, valueAt vs 6, valueAt vs 7,
    valueAt vs 8⟩

def timingFrom (vs : List Nat) : RawTiming :=
  ⟨valueAt vs 0, valueAt vs 1, valueAt vs 2, valueAt vs 3, valueAt vs 4, valueAt vs 5⟩

/-- The fields of a group record (R105), of which two are lists. -/
def groupFrom (bs : List Byte) : Option RawGroup :=
  match readFields [2, 2, 2, 1, 2, 2, 2, 2, 2] bs with
  | none => none
  | some (vs, bs) =>
    match readList [2, 1] bs with
    | none => none
    | some (ds, bs) =>
      match readNat 1 0 bs with
      | none => none
      | some (pair, bs) =>
        match readList [2, 1] bs with
        | some (ws, []) =>
          some ⟨BitVec.ofNat 16 (valueAt vs 0), valueAt vs 1, valueAt vs 2, valueAt vs 3, valueAt vs 4, valueAt vs 5,
            valueAt vs 6, valueAt vs 7, valueAt vs 8, ds.map pointOf, pair, ws.map pointOf⟩
        | _ => none

/-- The contents of a record of a kind, or none where they have not its length. -/
def recordFrom (kind : Nat) (bs : List Byte) : Option RawRecord :=
  match kind with
  | 0 => (readWhole [1, 1, 1, 1, 1, 2, 2] bs).map fun vs => .zone (zoneFrom vs)
  | 1 => (readWhole [1, 2, 2, 1, 2, 2, 1, 2, 2, 1, 2, 2] bs).map fun vs =>
      .schedule ([0, 1, 2, 3].map (windowAt vs))
  | 2 => (readWhole [1, 1, 1, 1, 1, 2, 2, 2, 1] bs).map fun vs => .door (doorFrom vs)
  | 3 => (readWhole (List.replicate 18 1) bs).map fun vs => .node ⟨valueAt vs 0, valueAt vs 1, vs.drop 2⟩
  | 4 => (groupFrom bs).map .group
  | 5 => match readList [1] bs with
    | some (ns, []) => some (.pollList ns.flatten)
    | _ => none
  | 6 => (readWhole [1, 1, 1, 1, 1, 1] bs).map fun vs => .loopTiming (timingFrom vs)
  | 7 => (readWhole [2, 2] bs).map fun vs => .partTimers (valueAt vs 0) (valueAt vs 1)
  | 8 => (readWhole [1, 1, 1, 1, 1, 1] bs).map fun vs =>
      .portRates ⟨valueAt vs 0, valueAt vs 1⟩ ⟨valueAt vs 2, valueAt vs 3⟩ ⟨valueAt vs 4, valueAt vs 5⟩
  | 9 => (readWhole [2, 2] bs).map fun vs => .accessWindow (valueAt vs 0) (valueAt vs 1)
  | k => some (.undefined k)

/-! ### The field changes of a Modify Credential -/

/-- One field change, and the bytes after it; a field that is not one of the eight has no width, so what follows it is
not read. -/
def changeFrom : List Byte → Option (FieldChange × List Byte)
  | [] => none
  | f :: bs =>
    let value := fun (w : Nat) (mk : Nat → FieldChange) => (readNat w 0 bs).map fun r => (mk r.1, r.2)
    match f.toNat with
    | 0 => value 3 .number
    | 1 => value 1 .cls
    | 2 => value 2 fun n => .perms (BitVec.ofNat 16 n)
    | 3 => value 1 .right
    | 4 => value 2 .pendant
    | 5 => value 1 fun n => .enabled (truthOf n)
    | 6 => value 1 fun n => .exempt (truthOf n)
    | 7 => value 1 fun n => .guarded (truthOf n)
    | k => some (.undefined k, [])

def changesFrom : Nat → List Byte → Option (List FieldChange)
  | 0, [] => some []
  | 0, _ :: _ => none
  | n + 1, bs =>
    match changeFrom bs with
    | none => none
    | some (.undefined k, _) => some [.undefined k]
    | some (c, rest) => (changesFrom n rest).map (c :: ·)

/-- The slot and the changes. -/
def modifyFrom (bs : List Byte) : Option (Nat × List FieldChange) :=
  match readNat 2 0 bs with
  | some (slot, n :: rest) => (changesFrom n.toNat rest).map fun cs => (slot, cs)
  | _ => none

/-! ### Requests -/

/-- A request whose parameters are values of fixed widths; where their length is not the layout's, the head says so and
the values are not looked at (R188, check 4). -/
def fixedRequest (p : Port) (tag : Nat) (ws : List Nat) (bs : List Byte) (mk : Head → (Nat → Nat) → Instr) : Instr :=
  match readWhole ws bs with
  | some vs => mk ⟨p, tag, true⟩ (valueAt vs)
  | none => mk ⟨p, tag, false⟩ fun _ => 0

/-- The record of a Write Credential from its values, the first being the slot. -/
def credentialFrom (v : Nat → Nat) : RawCredential :=
  ⟨v 1, v 2, BitVec.ofNat 16 (v 3), v 4, v 5, truthOf (v 6), truthOf (v 7), truthOf (v 8)⟩

/-- The command that a REQUEST frame carries (section 10.7). -/
def decodeRequest (p : Port) (tag code : Nat) (bs : List Byte) : Instr :=
  let fixed := fixedRequest p tag
  match code with
  | 0x01 => fixed [] bs fun h _ => .readStatus h
  | 0x02 => fixed [1] bs fun h v => .readZone h (v 0)
  | 0x03 => fixed [1] bs fun h v => .readDoor h (v 0)
  | 0x04 => fixed [1] bs fun h v => .readGroup h (v 0)
  | 0x05 => fixed [1, 1] bs fun h v => .readRoster h (v 0) (v 1)
  | 0x06 => fixed [1] bs fun h v => .readAlarmQueue h (v 0)
  | 0x07 => fixed [2] bs fun h v => .readPoint h (v 0)
  | 0x08 => fixed [2] bs fun h v => .readCredential h (v 0)
  | 0x09 => fixed [1] bs fun h v => .setNoticeFilter h (BitVec.ofNat 8 (v 0))
  | 0x10 => fixed [2, 3, 1, 2, 1, 2, 1, 1, 1] bs fun h v => .writeCredential h (v 0) (credentialFrom v)
  | 0x11 => fixed [2] bs fun h v => .eraseCredential h (v 0)
  | 0x12 =>
    match modifyFrom bs with
    | some (slot, cs) => .modifyCredential ⟨p, tag, true⟩ slot cs
    | none => .modifyCredential ⟨p, tag, false⟩ 0 []
  | 0x13 => fixed [1] bs fun h v => .remoteRelease h (v 0)
  | 0x14 => fixed [2] bs fun h v => .pointSet h (v 0)
  | 0x15 => fixed [2] bs fun h v => .pointClear h (v 0)
  | 0x16 => fixed [2] bs fun h v => .pointToggle h (v 0)
  | 0x17 => fixed [] bs fun h _ => .readAudit h
  | 0x20 => fixed [1] bs fun h v => .confirmFire h (v 0)
  | 0x21 => fixed [1] bs fun h v => .panelHold h (v 0)
  | 0x22 => fixed [1] bs fun h v => .panelResume h (v 0)
  | 0x23 => fixed [1] bs fun h v => .overrideHold h (v 0)
  | 0x24 => fixed [1] bs fun h v => .lockout h (v 0)
  | 0x25 => fixed [1] bs fun h v => .liftLockout h (v 0)
  | 0x26 => fixed [1] bs fun h v => .declareClear h (v 0)
  | 0x27 => fixed [1] bs fun h v => .rearm h (v 0)
  | 0x30 => fixed [2, 2] bs fun h v => .setAccessWindow h (v 0) (v 1)
  | 0x31 => fixed [2] bs fun h v => .setTime h (v 0)
  | 0x32 => fixed [1] bs fun h v => .setClosureDay h (closureOf (v 0))
  | 0x33 => fixed [1] bs fun h v => .lockdownZone h (v 0)
  | 0x34 => fixed [1] bs fun h v => .liftLockdown h (v 0)
  | 0x35 => fixed [1, 3, 2, 1] bs fun h v => .grantEscort h (v 0) (v 1) (v 2) (v 3)
  | 0x36 => fixed [1] bs fun h v => .revokeGrant h (v 0)
  | 0x37 => fixed [1, 1] bs fun h v => .moveRosterEntry h (v 0) (v 1)
  | 0x38 => fixed [1] bs fun h v => .removeRosterEntry h (v 0)
  | 0x39 => fixed [1] bs fun h v => .confirmZoneClear h (v 0)
  | 0x3A => fixed [1] bs fun h v => .acknowledgeAlarm h (v 0)
  | 0x3B => fixed [1] bs fun h v => .clearAlarm h (v 0)
  | 0x3C => fixed [1, 2] bs fun h v => .startLoopTest h (v 0) (v 1)
  | 0x3D => fixed [] bs fun h _ => .stopLoopTest h
  | 0x3E => fixed [] bs fun h _ => .readLoopTest h
  | 0x3F => fixed [2, 1] bs fun h v => .overrideSet h (v 0) (switchOf (v 1))
  | 0x40 => fixed [2] bs fun h v => .overrideClear h (v 0)
  | 0x41 =>
    match bs with
    | kind :: index :: contents =>
      match recordFrom kind.toNat contents with
      | some r => .writeConfigurationRecord ⟨p, tag, true⟩ index.toNat r
      | none => .writeConfigurationRecord ⟨p, tag, false⟩ index.toNat (.undefined kind.toNat)
    | _ => .writeConfigurationRecord ⟨p, tag, false⟩ 0 (.undefined 0)
  | 0x42 => fixed [1, 1] bs fun h v => .readConfigurationRecord h (v 0) (v 1)
  | 0x43 => fixed [] bs fun h _ => .restart h
  | c => .unknownRequest ⟨p, tag, true⟩ c

/-- The command that the body of a valid frame is (R188): a request by its code, and otherwise a frame that is no
request. -/
def decodeFrame (p : Port) (body : List Byte) : Instr :=
  match body with
  | kind :: tag :: code :: parameters =>
    if kind = 0x01#8 then decodeRequest p tag.toNat code.toNat parameters else .nonRequestFrame p
  | _ => .nonRequestFrame p

end Sys2Proof
end

