-- ==== Sys2Proof/Machine/State.lean ====
section
/-! DEFINITION. The state of the AS740: everything the spec gives the part, as plain data, block by block (00, "Block
diagram"), and the state right after a power-on of a part fresh from manufacture. INVENTORY.md lists every field with
its rule and its reset value. -/

namespace Sys2Proof.Machine

/-! ### Clock and Zone Table (01) -/

/-- The Clock (R7). `closureDay` holds the day index recorded with a set closure-day flag. -/
structure Clock where
  timeOfWeek : Nat
  minuteTimer : Nat
  timeKnown : Bool
  closureDay : Option Nat
  deriving DecidableEq, Repr

/-- The volatile conditions of a zone (R1): the kept after-hours status (R6), lockdown (R13), occupancy-unknown (R14). -/
structure ZoneCond where
  afterHours : Bool
  lockdown : Bool
  occUnknown : Bool
  deriving DecidableEq, Repr

/-! ### Configuration records (11) -/

inductive ZoneClass where
  | strongroom | reading | store | plant | circulation
  deriving DecidableEq, Repr

/-- A zone record (R1). The group field is the one copy of the relation between zones and groups. -/
structure ZoneRec where
  tracked : Bool
  cls : ZoneClass
  schedule : Nat
  group : Option Nat
  capacity : Nat
  interval : Nat
  grace : Nat
  deriving DecidableEq, Repr

/-- A window that covers something (R5); an inert window is kept as no window, since reads report it as empty. -/
structure Window where
  mask : Byte
  start : Nat
  stop : Nat
  deriving DecidableEq, Repr

/-- A schedule: windows 0..3 (R5). -/
structure Schedule where
  w0 : Option Window
  w1 : Option Window
  w2 : Option Window
  w3 : Option Window
  deriving DecidableEq, Repr

inductive DoorClass where
  | strongroom | interior | perimeter
  deriving DecidableEq, Repr

inductive Passback where
  | hard | soft
  deriving DecidableEq, Repr

inductive FailMode where
  | secure | free
  deriving DecidableEq, Repr

/-- A door record (R35). -/
structure DoorRec where
  sideA : Nat
  sideB : Nat
  cls : DoorClass
  node : Nat
  passback : Passback
  u : Nat
  h : Nat
  w : Nat
  failMode : FailMode
  deriving DecidableEq, Repr

inductive NodeType where
  | none | door | detector | station | pendant
  deriving DecidableEq, Repr

inductive CircuitFn where
  | none | abort | manualRelease | call | checkIn
  deriving DecidableEq, Repr

/-- A node record (R153). `zone` is 0 where the record has none; a circuit beyond the list has function NONE. -/
structure NodeRec where
  type : NodeType
  zone : Nat
  functions : List CircuitFn
  deriving DecidableEq, Repr

/-- The two cross sets of detector circuits (R105, R109). -/
inductive CrossSet where
  | x | y
  deriving DecidableEq, Repr

inductive WarnKind where
  | sounder | sign
  deriving DecidableEq, Repr

/-- A group record (R105), its zone set apart (R1). -/
structure GroupRec where
  b : Nat
  a : Nat
  c : Nat
  dmax : Nat
  rmin : Nat
  bm : Nat
  s : Nat
  p : Nat
  detectors : List (Nat × CrossSet)
  pair : Nat
  warnings : List (Nat × WarnKind)
  deriving DecidableEq, Repr

/-- The loop timing record (R171). -/
structure LoopTiming where
  tr : Nat
  r : Nat
  l : Nat
  g : Nat
  rate : Rate
  deriving DecidableEq, Repr

/-- The configuration records held in working memory (section 11.1). -/
structure Records where
  zones : Tab ZoneRec
  schedules : Tab Schedule
  doors : Tab DoorRec
  nodes : Tab NodeRec
  groups : Tab GroupRec
  pollList : List Nat
  timing : LoopTiming
  scrubInterval : Nat
  escalation : Nat
  rateA : Rate
  rateB : Rate
  rateC : Rate
  windowLow : Nat
  windowHigh : Nat
  deriving DecidableEq, Repr

/-- The default record of each kind (R205). The default group record names its own pair, so it depends on the number. -/
def ZoneRec.default : ZoneRec := ⟨false, .circulation, 0, none, 0, 0, 0⟩
def Schedule.default : Schedule := ⟨none, none, none, none⟩
def DoorRec.default : DoorRec := ⟨0, 1, .perimeter, 0, .hard, 50, 300, 150, .secure⟩
def NodeRec.default : NodeRec := ⟨.none, 0, []⟩
def GroupRec.default (g : Nat) : GroupRec := ⟨300, 0, 1, 900, 100, 150, 100, 50, [], g, []⟩
def LoopTiming.default : LoopTiming := ⟨10, 2, 3, 5, ⟨12, 0⟩⟩
def portDefaultRate : Rate := ⟨4, 0⟩

/-- Working memory with the default record of every kind (R205). -/
def Records.default : Records :=
  { zones := [], schedules := [], doors := [], nodes := [], groups := [], pollList := [],
    timing := LoopTiming.default, scrubInterval := 20, escalation := 1200,
    rateA := portDefaultRate, rateB := portDefaultRate, rateC := portDefaultRate,
    windowLow := 0, windowHigh := 511 }

/-- What an agent-spent cell holds under its own check (R206). -/
inductive SpentCell where
  | set | clear | mismatch
  deriving DecidableEq, Repr

/-- The Configuration Memory apart from the credential slots: the region (`none` where its check does not match,
R205), the agent-spent cells, and the cell writes in progress with the value being written (R206). -/
structure Nonvolatile where
  region : Option Records
  spent : Tab SpentCell
  spentWrites : Tab (Option Bool)
  deriving DecidableEq, Repr

/-! ### The Occupancy Roster (02) -/

inductive SlotState where
  | free | pendingEntry | present | presentMoving
  deriving DecidableEq, Repr

/-- The stage of a check-in deadline (R97). -/
inductive Stage where
  | due | grace | missed
  deriving DecidableEq, Repr

/-- A check-in deadline: a point in the week and its stage (R7, R97). -/
structure Deadline where
  minute : Nat
  phase : Nat
  stage : Stage
  deriving DecidableEq, Repr

/-- A roster slot (R16). -/
structure Slot where
  state : SlotState
  credential : Nat
  zone : Option Nat
  pendZone : Option Nat
  pendDoor : Option Nat
  entered : Option Nat
  mark : Bool
  grant : Option Nat
  deadline : Option Deadline
  duress : Bool
  deriving DecidableEq, Repr

/-- A FREE slot: every field cleared (R16). Credential 0 stands for an absent number. -/
def Slot.free : Slot := ⟨.free, 0, none, none, none, none, false, none, none, false⟩

/-! ### Door Controller (03) -/

inductive DoorState where
  | secure | pairWait | released | open | heldOpen | forced | fail
  deriving DecidableEq, Repr

inductive ReleaseKind where
  | entry | egress | exitButton | remote | freeOpening
  deriving DecidableEq, Repr

inductive Contact where
  | closed | open | unknown
  deriving DecidableEq, Repr

/-- The reasons of a REFUSED reader response (R39), in the order of R39 and of section 10.7. -/
inductive Refuse where
  | unknown | sealed | lockdown | noPermit | passback | afterHours | zoneFull | rosterFull | noCustodian | doorBusy
  | tooLate | pairIncomplete
  deriving DecidableEq, Repr

/-- A reader response (R39). -/
inductive Response where
  | idle | admitted | waitSecond | refused (r : Refuse)
  deriving DecidableEq, Repr

/-- The credential classes (R64). -/
inductive CredClass where
  | custodian | conservator | staff | contractor | guard
  deriving DecidableEq, Repr

/-- The after-hours rights (R64). -/
inductive Right where
  | none | withGrant | standing
  deriving DecidableEq, Repr

/-- The pair record of a PAIR-WAIT door (R38). `right` and `duress` are the model's: what R87 and R19 ask of the first
entrant when the pair completes (log 12). The arrival is held by the door's running timer W. -/
structure PairRec where
  credential : Nat
  cls : CredClass
  side : Side
  target : Nat
  right : Right
  duress : Bool
  deriving DecidableEq, Repr

/-- A decision in flight (R38): `age` counts the ticks since the arrival, `discard` is the mark of R41. -/
structure Decision where
  credential : Nat
  duress : Bool
  age : Nat
  discard : Option Refuse
  deriving DecidableEq, Repr

/-- The volatile state of a door (R38). `windowOver` records that W has ended while a second-entrant decision was in
flight (R48). -/
structure DoorVol where
  state : DoorState
  kind : Option ReleaseKind
  pset : List Nat
  target : Option Nat
  pair : Option PairRec
  windowOver : Bool
  timer : Option Nat
  decA : Option Decision
  decB : Option Decision
  contact : Contact
  respA : Response
  respB : Response
  deriving DecidableEq, Repr

/-- A door at power-on and after a Restart (R38). -/
def DoorVol.initial : DoorVol := ⟨.secure, none, [], none, none, false, none, none, none, .unknown, .idle, .idle⟩

/-! ### Credential Store (04) -/

/-- A credential record (R64). -/
structure Credential where
  number : Nat
  cls : CredClass
  perms : ZoneSet
  right : Right
  pendant : Nat
  enabled : Bool
  exempt : Bool
  guarded : Bool
  deriving DecidableEq, Repr

/-- The stored contents of a slot. `unreadable` is what an interrupted write may leave: contents whose check reports a
double error (R83). -/
inductive Contents where
  | empty | record (c : Credential) | unreadable
  deriving DecidableEq, Repr

/-- A store slot in nonvolatile memory: its damaged marker and its contents (R64, R67). -/
structure Cell where
  marker : Bool
  contents : Contents
  deriving DecidableEq, Repr

inductive SlotCond where
  | empty | inUse | damaged
  deriving DecidableEq, Repr

/-- An entry of the slot index (R65). -/
structure IndexEntry where
  cond : SlotCond
  number : Option Nat
  pendant : Option Nat
  guarded : Bool
  deriving DecidableEq, Repr

def Cell.fresh : Cell := ⟨false, .empty⟩
def IndexEntry.empty : IndexEntry := ⟨.empty, none, none, false⟩

/-- A port's operation on the store (R75 to R79). -/
inductive PortOp where
  | read (slot : Nat)
  | write (slot : Nat) (record : Credential)
  | erase (slot : Nat)
  | modify (slot : Nat) (changes : List FieldChange)
  deriving DecidableEq, Repr

/-- A credential lookup waiting in class 1 or running: the decision it serves (R73). -/
structure Lookup where
  door : Nat
  side : Side
  credential : Nat
  deriving DecidableEq, Repr

/-- A pending arrival of the Alarm Queue: a pendant heard by a receiver in a zone (R139). -/
structure PendantCall where
  pendant : Nat
  zone : Nat
  deriving DecidableEq, Repr

/-- The operation that holds the store (R69). `dropped` marks a running lookup whose decision a Restart dropped (R83). -/
inductive StoreOp where
  | lookup (l : Lookup) (dropped : Bool)
  | pendant (c : PendantCall)
  | port (p : Port) (op : PortOp)
  | scrub (slot : Nat)
  deriving DecidableEq, Repr

/-- The scrubber (R71, R82). -/
structure Scrubber where
  position : Nat
  interval : Option Nat
  waiting : Bool
  waited : Nat
  forced : Bool
  deriving DecidableEq, Repr

structure Store where
  cells : Tab Cell
  index : Tab IndexEntry
  corrected : Nat
  op : Option StoreOp
  class1 : List Lookup
  class2 : List PendantCall
  waitConsole : Option PortOp
  waitFire : Option PortOp
  waitAccess : Option PortOp
  scrubber : Scrubber
  deriving DecidableEq, Repr

/-! ### After-Hours Unit (05) -/

inductive GrantState where
  | free | live | overstay
  deriving DecidableEq, Repr

/-- A grant record (R89); a FREE grant holds zeros. -/
structure Grant where
  state : GrantState
  zone : Nat
  escort : Nat
  expiry : Nat
  maximum : Nat
  count : Nat
  deriving DecidableEq, Repr

def Grant.free : Grant := ⟨.free, 0, 0, 0, 0, 0⟩

/-- The place record of a reserved slot (R88). -/
structure Place where
  door : Nat
  taken : Option Nat
  former : Option Nat
  afterHours : Bool
  deriving DecidableEq, Repr

inductive AuditKind where
  | entry | exit | refused | carriedOver | grantOpened | grantEnded | overstay | passbackSoft
  deriving DecidableEq, Repr

/-- An audit record (R101). -/
structure AuditRec where
  minute : Nat
  kind : AuditKind
  zone : Nat
  credential : Option Nat
  door : Option Nat
  grant : Option Nat
  reason : Option Refuse
  deriving DecidableEq, Repr

structure AfterHours where
  grants : Tab Grant
  places : Tab (Option Place)
  audit : List AuditRec
  wrapped : Bool
  deriving DecidableEq, Repr

/-! ### Release Controller (06) -/

inductive GroupState where
  | startup | normal | alert | countdown | held | sealWait | releasing | discharged | lockout
  deriving DecidableEq, Repr

/-- The volatile state of a group and its agent-spent flag (R107). -/
structure GroupVol where
  state : GroupState
  remaining : Option Nat
  elapsed : Option Nat
  manual : Bool
  panelHold : Bool
  sealTimer : Option Nat
  pulse : Option Nat
  spent : Bool
  deriving DecidableEq, Repr

/-- A group at a power-on with the configuration INVALID and its agent-spent cell never written (R107, R205, R206). -/
def GroupVol.unwritten : GroupVol := ⟨.lockout, none, none, false, false, none, none, true⟩

/-- The groups, the Override Hold marks by node address (R120), and the release line pairs that are driven (R124). -/
structure Release where
  groups : Tab GroupVol
  holdMarks : List Nat
  lines : Tab Bool
  deriving DecidableEq, Repr

/-! ### Alarm Queue (07) -/

/-- The kinds of alarm, in the order of their priorities 0 to 7 (R134). -/
inductive AlarmKind where
  | occupantsAtDischarge | duress | pendant | callStation | missedCheckIn | forcedDoor | overstay | heldDoor
  deriving DecidableEq, Repr

/-- The key of an alarm (R134): absent fields are `none`. -/
structure AlarmKey where
  kind : AlarmKind
  zone : Nat
  person : Option Nat
  pendant : Option Nat
  door : Option Nat
  deriving DecidableEq, Repr

/-- An alarm record (R135). `acked` is the state ACKNOWLEDGED; otherwise the record is RAISED. -/
structure AlarmRec where
  number : Nat
  key : AlarmKey
  grant : Option Nat
  raised : Nat
  repeats : Nat
  acked : Bool
  active : Bool
  unlocated : Bool
  level : Nat
  escalation : Option Nat
  silence : Option Nat
  deriving DecidableEq, Repr

structure Alarms where
  records : List AlarmRec
  next : Nat
  overflow : Nat
  arrivals : List PendantCall
  line : Bool
  deriving DecidableEq, Repr

/-! ### Loop Controller (08) -/

inductive Supervision where
  | unknown | online | lost
  deriving DecidableEq, Repr

/-- Why an attempt with a node failed, as Read Point reports it (R185): the faults of R157 in its order, then the timeout
(log 49). -/
inductive FailReason where
  | parity | framing | overrun | timeout
  deriving DecidableEq, Repr

/-- The loop's record of a node (R154, R161, R167). The input image lists the readings of circuits 0, 1, …; a circuit
beyond the list is unreported. `readBy` is the record by which a node's circuits are still read after a write of its zone
or functions, until the next change handed on from the node (R153). -/
structure NodeVol where
  sup : Supervision
  f : Nat
  g : Nat
  toggle : Bool
  input : List Reading
  lastFail : Option FailReason
  readBy : Option NodeRec
  deriving DecidableEq, Repr

def NodeVol.initial : NodeVol := ⟨.unknown, 0, 0, false, [], none, none⟩

/-- Which command an exchange carries: the node's output image, or a test byte (R158, R176). -/
inductive Command where
  | poll | test (byte : Byte)
  deriving DecidableEq, Repr

/-- One character as the master sends it: its mark and its data bits (R156). -/
structure LoopChar where
  mark : Bool
  data : Byte
  deriving DecidableEq, Repr

/-- The exchange in flight (R158, R160, R166). `step` holds for a list step whose entry the poller has still to leave;
`urgent` for an urgent exchange; `quiet` after a failed attempt, until the RETRY; `stale` where the node's record was
made NONE or retyped meanwhile (log 17); `judged` for a TEST whose test still runs; `frame` is the poll as sent;
`record` is the node's record as the exchange began, by which what it hands on is read (R166); `sending` while the poll
is being sent (R158, log 10). -/
structure Exchange where
  node : Nat
  command : Command
  urgent : Bool
  step : Bool
  fails : Nat
  quiet : Bool
  stale : Bool
  judged : Bool
  timing : LoopTiming
  frame : List LoopChar
  record : NodeRec
  sending : Bool
  deriving DecidableEq, Repr

/-- The Loop Controller. `reportsDue` holds the station nodes whose first report since the last Restart is still to come
(R152, log 19). -/
structure Loop where
  nodes : Tab NodeVol
  position : Nat
  urgent : List Nat
  gapLeft : Nat
  exchange : Option Exchange
  tried : List Bool
  passDone : Bool
  rewritten : Bool
  reportsDue : List Nat
  deriving DecidableEq, Repr

/-! ### Loop test and points (09) -/

inductive TestCause where
  | stopped | nodeLost | groupChange | doorChange | restart
  deriving DecidableEq, Repr

/-- The test state (R174): running while `cause` is absent. The shift registers are their last seven bits, stage 1
being bit 0 and stage 7 bit 6 (R175). -/
structure LoopTest where
  node : Nat
  window : Nat
  inWindow : Nat
  position : Nat
  sender : BitVec 7
  inSync : Bool
  checker : Option (BitVec 7)
  hits : Nat
  misses : Nat
  errors : Nat
  result : Option Byte
  windows : Nat
  watched : List Nat
  cause : Option TestCause
  deriving DecidableEq, Repr

/-- An override entry (R183). -/
inductive Override where
  | none | forceOn | forceOff
  deriving DecidableEq, Repr

structure Points where
  base : Tab Bool
  overrides : Tab Override
  deriving DecidableEq, Repr

/-! ### Station ports (10) -/

/-- A value of a frame with its width on the wire (R200). -/
inductive Val where
  | u8 (n : Nat) | u16 (n : Nat) | u24 (n : Nat)
  deriving DecidableEq, Repr

/-- The result codes (section 10.7), in code order, and the result ZONE-FULL of a Move (R29), to which the table gives
no code (log 23). -/
inductive Result where
  | done | doneClamped | busy | notPermitted | outOfWindow | guarded | damaged | notFound | full | badState | badParam
  | unknownRequest | zoneFull
  deriving DecidableEq, Repr

/-- The notice types (section 10.7), category by category. -/
inductive NoticeType where
  | alarmRaised | alarmRepeated | alarmCauseEnded | alarmEscalated | alarmAcknowledged | alarmRemoved | alarmDisplaced
  | alarmOverflow | generalAlarmOn | generalAlarmOff
  | doorDecision | doorRepeat | doorPairIncomplete | doorPairAbandoned | doorPairWithdrawn | doorOpened | doorClosed
  | doorReleaseLapsed | doorReleaseWithdrawn | doorHeldOpen | doorForced | doorNodeLost | doorNodeRestored
  | doorPassback | doorLockdown
  | groupStateChanged | groupDetection | groupDetectorFault | groupAbortFault | groupNoAgent | groupConfirmedInLockout
  | groupManualInLockout | groupManualStanding | groupRevised | groupHoldOn | groupHoldOff | groupManualRelease
  | groupUnsealed | groupReleasing | groupDischarged | groupSpentChanged | groupOccUnknownSet | groupOccUnknownCleared
  | groupConfigInvalid
  | nodeLost | nodeRestored | nodeFirstPass | nodeTestStarted | nodeTestSync | nodeTestResult | nodeTestEnded
  | nodeOverrideSet | nodeOverrideCleared | nodeOverridesSuspended | nodeOverridesApplied
  | storeDamaged
  | hoursAudit | hoursMissed | hoursGrantState | hoursTransition
  | linkLost | linkRestored
  | clockTimeSet | clockClosureSet | clockClosureCleared
  deriving DecidableEq, Repr

structure Notice where
  type : NoticeType
  values : List Val
  deriving DecidableEq, Repr

/-- A reply (R189): the tag of the frame answered, the result, the echoed request code, the results. -/
structure Reply where
  tag : Nat
  result : Result
  code : Nat
  results : List Val
  deriving DecidableEq, Repr

/-- What a port's transmitter sends (R190). -/
inductive Frame where
  | busy (tag code : Nat)
  | reply (r : Reply)
  | notice (n : Notice)
  deriving DecidableEq, Repr

/-- The operation a request in flight is waiting for (R189): the store's, the region's (with the result its reply will
carry, and whether it wrote the port rate record), the window's, or a Rearm's cell. -/
inductive Work where
  | store
  | region (result : Result) (rates : Bool)
  | window (low high : Nat) (code : Nat)
  | rearm (group : Nat)
  deriving DecidableEq, Repr

structure InFlight where
  tag : Nat
  code : Nat
  suppressed : Bool
  work : Work
  deriving DecidableEq, Repr

/-- The receive state of a port with the bytes assembled (R187): the length, the body so far, the first CRC byte. -/
inductive Receive where
  | hunt
  | length
  | body (len : Nat) (bytes : List Byte)
  | check (len : Nat) (bytes : List Byte) (crc : List Byte)
  deriving DecidableEq, Repr

/-- A port. `rateDue` is a changed rate that waits for the port to be idle (R195). -/
structure PortState where
  receive : Receive
  inFlight : Option InFlight
  busy : List (Nat × Nat)
  replies : List Reply
  refused : List Reply
  notices : List Notice
  filter : Byte
  lost : Bool
  sending : Option Frame
  rate : Rate
  rateDue : Option Rate
  deriving DecidableEq, Repr

/-- A port as a power-on leaves it, at the default rate (R199). -/
def PortState.initial : PortState :=
  ⟨.hunt, none, [], [], [], [], 0xFF#8, false, none, portDefaultRate, none⟩

/-- How far a write of the port rates has come (R195): being written, its reply waiting behind `ahead` other replies, or
its reply being sent. -/
inductive RateStage where
  | writing | queued (ahead : Nat) | sending
  deriving DecidableEq, Repr

/-- A write of the port rates whose reply has not been sent yet, with the settings of the three ports (R195). -/
structure RateWrite where
  stage : RateStage
  access : Rate
  fire : Rate
  console : Rate
  deriving DecidableEq, Repr

structure Ports where
  access : PortState
  fire : PortState
  console : PortState
  linkPresent : Bool
  silence : Nat
  rateWrites : List RateWrite
  deriving DecidableEq, Repr

/-! ### The whole part -/

structure State where
  serving : Bool
  clock : Clock
  zones : Tab ZoneCond
  configValid : Bool
  config : Records
  nv : Nonvolatile
  roster : Tab Slot
  doors : Tab DoorVol
  store : Store
  afterHours : AfterHours
  release : Release
  alarms : Alarms
  loop : Loop
  loopTest : Option LoopTest
  points : Points
  ports : Ports
  pending : List Instr
  deriving DecidableEq, Repr

/-- No command of the part stops it with a fault: the spec names no such condition (INVENTORY.md, Faults). -/
inductive Fault where
  deriving DecidableEq, Repr

/-- Why the model gives a command no meaning. -/
inductive Refusal where
  /-- Raised by a dispatch arm that has no meaning yet; safe, since nothing is claimed of the command. No arm does. -/
  | notModelled (mnemonic : String)
  deriving DecidableEq, Repr

/-- A zone at power-on: after-hours, no flag (R6, R13, R14; the tracked zones are flagged by the power-on itself). -/
def ZoneCond.initial : ZoneCond := ⟨true, false, false⟩

/-- The start-up notices of a part fresh from manufacture (R205, R206, R207 step 5): "configuration invalid", then
"agent-spent changed" for each group. A group notice carries the group, the time, the state, remaining and elapsed. -/
def startupNotices : List Notice :=
  ⟨.groupConfigInvalid, [.u16 0]⟩ ::
    [0, 1, 2, 3].map fun g => ⟨.groupSpentChanged, [.u8 g, .u16 0, .u8 8, .u16 0, .u16 0]⟩

/-- A port that sends its first start-up notice and queues the others. -/
def PortState.started : PortState :=
  { PortState.initial with
    sending := startupNotices.head?.map .notice
    notices := startupNotices.tail }

/-- The machine right after reset: a power-on of a part fresh from manufacture (log 1), its configuration never written
and so INVALID with the default records, every group in LOCKOUT with its agent-spent cell taken as set and rewritten,
the credential slots empty. Laws/Reset.lean proves that this is what the command POWER_ON makes of such a part. -/
def State.reset : State :=
  { serving := true
    clock := ⟨0, 0, false, none⟩
    zones := []
    configValid := false
    config := Records.default
    nv := { region := none, spent := [(0, .set), (1, .set), (2, .set), (3, .set)], spentWrites := [] }
    roster := []
    doors := []
    store :=
      { cells := [], index := [], corrected := 0, op := none, class1 := [], class2 := [],
        waitConsole := none, waitFire := none, waitAccess := none,
        scrubber := ⟨0, some 20, false, 0, false⟩ }
    afterHours := ⟨[], [], [], false⟩
    release := ⟨[], [], []⟩
    alarms := ⟨[], 1, 0, [], false⟩
    loop :=
      { nodes := [], position := 0, urgent := [], gapLeft := 0, exchange := none, tried := [],
        passDone := false, rewritten := false, reportsDue := [] }
    loopTest := none
    points := ⟨[], []⟩
    ports :=
      { access := PortState.initial, fire := PortState.started, console := PortState.started,
        linkPresent := true, silence := 0, rateWrites := [] }
    pending := [] }

end Sys2Proof.Machine
end

