-- ==== Sys2Proof/Machine/Tab.lean ====
section
/-! DEFINITION. Reading and writing a table of numbered records (`Tab`). An unlisted key holds the default of its
table; a write keeps the keys rising and never lists a default (Laws/Tab.lean proves both, and the read laws). -/

namespace Sys2Proof

/-- The record at key `i`, `d` being the default there. -/
def Tab.get {α : Type} (d : α) : Tab α → Nat → α
  | [], _ => d
  | (j, v) :: t, i => if i = j then v else Tab.get d t i

/-- The table with a listed entry `v` at key `i`, in its place among the keys. -/
def Tab.put {α : Type} : Tab α → Nat → α → Tab α
  | [], i, v => [(i, v)]
  | (j, w) :: t, i, v =>
    if i < j then (i, v) :: (j, w) :: t
    else if i = j then (i, v) :: t
    else (j, w) :: Tab.put t i v

/-- The table without an entry at key `i`. -/
def Tab.drop {α : Type} (t : Tab α) (i : Nat) : Tab α := t.filter fun e => !(e.1 == i)

/-- The table with record `v` at key `i`, `d` being the default there. -/
def Tab.set {α : Type} [DecidableEq α] (d : α) (t : Tab α) (i : Nat) (v : α) : Tab α :=
  if v = d then Tab.drop t i else Tab.put t i v

/-- Keys rise strictly, from above `lo` where one is given. -/
def Tab.rising {α : Type} : Option Nat → Tab α → Bool
  | _, [] => true
  | lo, (j, _) :: t => (match lo with | none => true | some k => decide (k < j)) && Tab.rising (some j) t

/-- The canonical form: keys strictly rising, and no entry equal to its default. -/
def Tab.wf {α : Type} [DecidableEq α] (d : Nat → α) (t : Tab α) : Bool :=
  Tab.rising none t && t.all fun e => !(decide (e.2 = d e.1))

end Sys2Proof
end

