-- ==== Sys2Proof/Machine/Ops.lean ====
section
/-! DEFINITION. The named operations every meaning is written in: reading and writing the numbered records of each
block, points in time, offering notices (R192), taking a request frame (R188), making its reply (R189), and the
transmitters (R190). Each changes one block of the state only. -/

namespace Sys2Proof.Machine

/-- The host's outcome of a step, for this machine. -/
abbrev Out := Host.Outcome State Fault Refusal

/-! ### Numbered records -/

/-- The record of a zone; zone 0, the exterior, has its fixed record (R3). R3 names no class and R1's table gives none
for zone 0: its class is that of R205's default record, CIRCULATION (DESIGN CHOICE, log 62). -/
def Records.zone (r : Records) (z : Nat) : ZoneRec :=
  if z = 0 then ZoneRec.default else Tab.get ZoneRec.default r.zones z

def Records.schedule (r : Records) (i : Nat) : Schedule := Tab.get Schedule.default r.schedules i
def Records.door (r : Records) (d : Nat) : DoorRec := Tab.get DoorRec.default r.doors d
def Records.node (r : Records) (n : Nat) : NodeRec := Tab.get NodeRec.default r.nodes n
def Records.group (r : Records) (g : Nat) : GroupRec := Tab.get (GroupRec.default g) r.groups g

def Records.putZone (r : Records) (z : Nat) (v : ZoneRec) : Records :=
  { r with zones := Tab.set ZoneRec.default r.zones z v }
def Records.putSchedule (r : Records) (i : Nat) (v : Schedule) : Records :=
  { r with schedules := Tab.set Schedule.default r.schedules i v }
def Records.putDoor (r : Records) (d : Nat) (v : DoorRec) : Records :=
  { r with doors := Tab.set DoorRec.default r.doors d v }
def Records.putNode (r : Records) (n : Nat) (v : NodeRec) : Records :=
  { r with nodes := Tab.set NodeRec.default r.nodes n v }
def Records.putGroup (r : Records) (g : Nat) (v : GroupRec) : Records :=
  { r with groups := Tab.set (GroupRec.default g) r.groups g v }

def State.zone (s : State) (z : Nat) : ZoneCond := Tab.get ZoneCond.initial s.zones z
def State.slot (s : State) (i : Nat) : Slot := Tab.get Slot.free s.roster i
def State.door (s : State) (d : Nat) : DoorVol := Tab.get DoorVol.initial s.doors d
def State.group (s : State) (g : Nat) : GroupVol := Tab.get GroupVol.unwritten s.release.groups g
def State.node (s : State) (n : Nat) : NodeVol := Tab.get NodeVol.initial s.loop.nodes n
def State.grant (s : State) (g : Nat) : Grant := Tab.get Grant.free s.afterHours.grants g
def State.place (s : State) (i : Nat) : Option Place := Tab.get none s.afterHours.places i
def State.base (s : State) (pt : Nat) : Bool := Tab.get false s.points.base pt
def State.override (s : State) (pt : Nat) : Override := Tab.get .none s.points.overrides pt
def State.lineDriven (s : State) (pair : Nat) : Bool := Tab.get false s.release.lines pair
def State.spentCell (s : State) (g : Nat) : SpentCell := Tab.get .mismatch s.nv.spent g
def Store.cell (t : Store) (i : Nat) : Cell := Tab.get Cell.fresh t.cells i
def Store.entry (t : Store) (i : Nat) : IndexEntry := Tab.get IndexEntry.empty t.index i

def putZone (z : Nat) (v : ZoneCond) (s : State) : State :=
  { s with zones := Tab.set ZoneCond.initial s.zones z v }
def putSlot (i : Nat) (v : Slot) (s : State) : State :=
  { s with roster := Tab.set Slot.free s.roster i v }
def putDoor (d : Nat) (v : DoorVol) (s : State) : State :=
  { s with doors := Tab.set DoorVol.initial s.doors d v }
def putGroup (g : Nat) (v : GroupVol) (s : State) : State :=
  { s with release := { s.release with groups := Tab.set GroupVol.unwritten s.release.groups g v } }
def putNode (n : Nat) (v : NodeVol) (s : State) : State :=
  { s with loop := { s.loop with nodes := Tab.set NodeVol.initial s.loop.nodes n v } }
def putGrant (g : Nat) (v : Grant) (s : State) : State :=
  { s with afterHours := { s.afterHours with grants := Tab.set Grant.free s.afterHours.grants g v } }
def putPlace (i : Nat) (v : Option Place) (s : State) : State :=
  { s with afterHours := { s.afterHours with places := Tab.set none s.afterHours.places i v } }
def putBase (pt : Nat) (v : Bool) (s : State) : State :=
  { s with points := { s.points with base := Tab.set false s.points.base pt v } }
def putOverride (pt : Nat) (v : Override) (s : State) : State :=
  { s with points := { s.points with overrides := Tab.set .none s.points.overrides pt v } }
def putLine (pair : Nat) (v : Bool) (s : State) : State :=
  { s with release := { s.release with lines := Tab.set false s.release.lines pair v } }
def Store.putCell (t : Store) (i : Nat) (v : Cell) : Store := { t with cells := Tab.set Cell.fresh t.cells i v }
def Store.putEntry (t : Store) (i : Nat) (v : IndexEntry) : Store :=
  { t with index := Tab.set IndexEntry.empty t.index i v }

/-- The zones 1..15, in zone order. -/
def allZones : List Nat := [1, 2, 3, 4, 5, 6, 7, 8, 9, 10, 11, 12, 13, 14, 15]
/-- The groups 0..3. -/
def allGroups : List Nat := [0, 1, 2, 3]
/-- The doors 0..31. -/
def allDoors : List Nat := List.range Config.doorCount
/-- The node addresses 1..60. -/
def allNodes : List Nat := (List.range Config.nodeMax).map (· + 1)
/-- The circuits and outputs 0..15 of a node. -/
def allCircuits : List Nat := [0, 1, 2, 3, 4, 5, 6, 7, 8, 9, 10, 11, 12, 13, 14, 15]

/-- Apply `f` for each element in order. -/
def forEach {α : Type} (xs : List α) (f : α → State → State) (s : State) : State :=
  xs.foldl (fun s x => f x s) s

/-- Apply `f` where the condition holds. -/
def onlyIf (c : Bool) (f : State → State) (s : State) : State := if c then f s else s

/-- Bring a number into a range (00, "Counters"; the clamping of R1, R35, R105, R171). -/
def clamp (lo hi n : Nat) : Nat := max lo (min hi n)

/-- A counter that saturates at `top`. -/
def bump (top n : Nat) : Nat := min top (n + 1)

/-! ### Points in time -/

/-- The minute `m` minutes after the current time of week (R90, R96). -/
def State.minuteAfter (s : State) (m : Nat) : Nat := (s.clock.timeOfWeek + m) % Config.weekMinutes

/-- A deadline in stage DUE, `m` minutes from now at the current tick phase (R96, R98). -/
def State.deadlineIn (s : State) (m : Nat) : Deadline := ⟨s.minuteAfter m, s.clock.minuteTimer, .due⟩

/-! ### Ports and notices -/

def Ports.get (q : Ports) : Port → PortState
  | .access => q.access
  | .fire => q.fire
  | .console => q.console

def Ports.put (q : Ports) : Port → PortState → Ports
  | .access, v => { q with access := v }
  | .fire, v => { q with fire := v }
  | .console, v => { q with console := v }

def State.port (s : State) (p : Port) : PortState := s.ports.get p

/-- Change one port's state. -/
def onPort (p : Port) (f : PortState → PortState) (s : State) : State :=
  { s with ports := s.ports.put p (f (s.ports.get p)) }

def allPorts : List Port := [.access, .fire, .console]

/-- The category of a notice type, 1..8 (R192), and its code within the category (section 10.7). -/
def NoticeType.place : NoticeType → Nat × Nat
  | .alarmRaised => (1, 0) | .alarmRepeated => (1, 1) | .alarmCauseEnded => (1, 2) | .alarmEscalated => (1, 3)
  | .alarmAcknowledged => (1, 4) | .alarmRemoved => (1, 5) | .alarmDisplaced => (1, 6) | .alarmOverflow => (1, 7)
  | .generalAlarmOn => (1, 8) | .generalAlarmOff => (1, 9)
  | .doorDecision => (2, 0) | .doorRepeat => (2, 1) | .doorPairIncomplete => (2, 2) | .doorPairAbandoned => (2, 3)
  | .doorPairWithdrawn => (2, 4) | .doorOpened => (2, 5) | .doorClosed => (2, 6) | .doorReleaseLapsed => (2, 7)
  | .doorReleaseWithdrawn => (2, 8) | .doorHeldOpen => (2, 9) | .doorForced => (2, 10) | .doorNodeLost => (2, 11)
  | .doorNodeRestored => (2, 12) | .doorPassback => (2, 13) | .doorLockdown => (2, 14)
  | .groupStateChanged => (3, 0) | .groupDetection => (3, 1) | .groupDetectorFault => (3, 2) | .groupAbortFault => (3, 3)
  | .groupNoAgent => (3, 4) | .groupConfirmedInLockout => (3, 5) | .groupManualInLockout => (3, 6)
  | .groupManualStanding => (3, 7) | .groupRevised => (3, 8) | .groupHoldOn => (3, 9) | .groupHoldOff => (3, 10)
  | .groupManualRelease => (3, 11) | .groupUnsealed => (3, 12) | .groupReleasing => (3, 13)
  | .groupDischarged => (3, 14) | .groupSpentChanged => (3, 15) | .groupOccUnknownSet => (3, 16)
  | .groupOccUnknownCleared => (3, 17) | .groupConfigInvalid => (3, 18)
  | .nodeLost => (4, 0) | .nodeRestored => (4, 1) | .nodeFirstPass => (4, 2) | .nodeTestStarted => (4, 3)
  | .nodeTestSync => (4, 4) | .nodeTestResult => (4, 5) | .nodeTestEnded => (4, 6) | .nodeOverrideSet => (4, 7)
  | .nodeOverrideCleared => (4, 8) | .nodeOverridesSuspended => (4, 9) | .nodeOverridesApplied => (4, 10)
  | .storeDamaged => (5, 0)
  | .hoursAudit => (6, 0) | .hoursMissed => (6, 1) | .hoursGrantState => (6, 2) | .hoursTransition => (6, 3)
  | .linkLost => (7, 0) | .linkRestored => (7, 1)
  | .clockTimeSet => (8, 0) | .clockClosureSet => (8, 1) | .clockClosureCleared => (8, 2)

def NoticeType.category (t : NoticeType) : Nat := t.place.1
def NoticeType.code (t : NoticeType) : Nat := t.place.2

/-- What a port does with a notice offered to it (R192): bit n-1 of the filter stands for category n (R193). -/
def PortState.offered (n : Notice) (q : PortState) : PortState :=
  if q.filter.getLsbD (n.type.category - 1) then
    if q.notices.length < Config.noticeMax then { q with notices := q.notices ++ [n] } else { q with lost := true }
  else q

/-- Offer a notice to the ports its rule names, in that order. -/
def offer (ps : List Port) (t : NoticeType) (values : List Val) (s : State) : State :=
  forEach ps (fun p => onPort p (PortState.offered ⟨t, values⟩)) s

/-- The Fire Port and the Console Port, to which the group notices go (R132). -/
def groupPorts : List Port := [.fire, .console]

/-! ### Optional and logical values on the wire (R200) -/

/-- An absent optional field is sent as 0 (R200). -/
def Val.opt8 (o : Option Nat) : Val := .u8 (o.getD 0)
def Val.opt16 (o : Option Nat) : Val := .u16 (o.getD 0)
def Val.opt24 (o : Option Nat) : Val := .u24 (o.getD 0)
/-- A condition to which its rule gives no list of names: its code is the free value of log 22. -/
def Val.flag (b : Bool) : Val := .u8 (Config.truthCode b)
/-- A value that its rule lists as yes or no (R1, R64, R135), set or clear (R10, R107) or on or off (R181), by its place
in that list. -/
def Val.named (b : Bool) : Val := .u8 (if b then 0 else 1)
/-- A mark that R16 lists as clear or set, by its place in that list. -/
def Val.mark (b : Bool) : Val := .u8 (if b then 1 else 0)

/-! ### Taking a request and answering it -/

/-- The request codes (section 10.7). -/
def Code.readStatus : Nat := 0x01
def Code.readZone : Nat := 0x02
def Code.readDoor : Nat := 0x03
def Code.readGroup : Nat := 0x04
def Code.readRoster : Nat := 0x05
def Code.readAlarmQueue : Nat := 0x06
def Code.readPoint : Nat := 0x07
def Code.readCredential : Nat := 0x08
def Code.setNoticeFilter : Nat := 0x09
def Code.writeCredential : Nat := 0x10
def Code.eraseCredential : Nat := 0x11
def Code.modifyCredential : Nat := 0x12
def Code.remoteRelease : Nat := 0x13
def Code.pointSet : Nat := 0x14
def Code.pointClear : Nat := 0x15
def Code.pointToggle : Nat := 0x16
def Code.readAudit : Nat := 0x17
def Code.confirmFire : Nat := 0x20
def Code.panelHold : Nat := 0x21
def Code.panelResume : Nat := 0x22
def Code.overrideHold : Nat := 0x23
def Code.lockout : Nat := 0x24
def Code.liftLockout : Nat := 0x25
def Code.declareClear : Nat := 0x26
def Code.rearm : Nat := 0x27
def Code.setAccessWindow : Nat := 0x30
def Code.setTime : Nat := 0x31
def Code.setClosureDay : Nat := 0x32
def Code.lockdownZone : Nat := 0x33
def Code.liftLockdown : Nat := 0x34
def Code.grantEscort : Nat := 0x35
def Code.revokeGrant : Nat := 0x36
def Code.moveRosterEntry : Nat := 0x37
def Code.removeRosterEntry : Nat := 0x38
def Code.confirmZoneClear : Nat := 0x39
def Code.acknowledgeAlarm : Nat := 0x3A
def Code.clearAlarm : Nat := 0x3B
def Code.startLoopTest : Nat := 0x3C
def Code.stopLoopTest : Nat := 0x3D
def Code.readLoopTest : Nat := 0x3E
def Code.overrideSet : Nat := 0x3F
def Code.overrideClear : Nat := 0x40
def Code.writeConfigurationRecord : Nat := 0x41
def Code.readConfigurationRecord : Nat := 0x42
def Code.restart : Nat := 0x43

/-- Whether a code is a defined request code (section 10.7). -/
def codeDefined (code : Nat) : Bool :=
  (0x01 ≤ code && code ≤ 0x09) || (0x10 ≤ code && code ≤ 0x17) || (0x20 ≤ code && code ≤ 0x27) ||
    (0x30 ≤ code && code ≤ 0x43)

/-- The role of each port (R186). -/
def roleAllows (p : Port) (code : Nat) : Bool :=
  (0x01 ≤ code && code ≤ 0x09) ||
    match p with
    | .access => 0x10 ≤ code && code ≤ 0x17
    | .fire => 0x20 ≤ code && code ≤ 0x27
    | .console => (0x10 ≤ code && code ≤ 0x17) || (0x30 ≤ code && code ≤ 0x43)

/-- A valid frame has arrived on the port: on the Fire Port the silence timer restarts and a LOST link is restored before
the frame is taken (R198). -/
def frameArrived (p : Port) (s : State) : State :=
  if p = .fire then
    let wasLost := !s.ports.linkPresent
    let s := { s with ports := { s.ports with silence := 0, linkPresent := true } }
    onlyIf wasLost (offer [.console] .linkRestored []) s
  else s

/-- Hand the reply of a request whose operation has ended to the port's transmitter (R189, R190). -/
def answer (p : Port) (tag code : Nat) (result : Result) (results : List Val) (s : State) : State :=
  onPort p (fun q => { q with replies := q.replies ++ [⟨tag, result, code, results⟩] }) s

/-- The reply of a request refused at checks 2 to 4 of R188. -/
def refuse (p : Port) (tag code : Nat) (result : Result) (s : State) : State :=
  onPort p (fun q => { q with refused := q.refused ++ [⟨tag, result, code, []⟩] }) s

/-- A request that ends at its taking answers under its own head (R189). -/
def done (h : Head) (code : Nat) (result : Result) (results : List Val) (s : State) : State :=
  answer h.port h.tag code result results s

/-- A REQUEST frame of a defined code is taken (R188): BUSY while a request is in flight (a fifth BUSY reply discards
the frame, R190), then the port's role, then the length of the parameters, then the request's own rule. -/
def takeRequest (h : Head) (code : Nat) (run : State → State) (s : State) : State :=
  if (s.port h.port).inFlight.isSome then
    onPort h.port (fun q => if q.busy.length < Config.busyMax then { q with busy := q.busy ++ [(h.tag, code)] } else q) s
  else if !roleAllows h.port code then refuse h.port h.tag code .notPermitted s
  else if !h.sized then refuse h.port h.tag code .badParam s
  else run s

/-- The request is in flight from its taking, its operation lasting beyond it (R189). -/
def beginWork (h : Head) (code : Nat) (work : Work) (s : State) : State :=
  onPort h.port (fun q => { q with inFlight := some ⟨h.tag, code, false, work⟩ }) s

/-- The operation of the port's request in flight has ended: the reply is made unless it is suppressed (R189, R191). -/
def endWork (p : Port) (result : Result) (results : List Val) (s : State) : State :=
  match (s.port p).inFlight with
  | none => s
  | some f =>
    let s := onPort p (fun q => { q with inFlight := none }) s
    if f.suppressed then s else answer p f.tag f.code result results s

/-! ### The transmitters and the end of a step -/

/-- An idle transmitter takes the next frame in the order of R190; of several replies of one kind the oldest (log 122). -/
def PortState.takeNext (q : PortState) : PortState :=
  match q.sending with
  | some _ => q
  | none =>
    match q.busy with
    | (t, c) :: rest => { q with busy := rest, sending := some (.busy t c) }
    | [] =>
      match q.replies with
      | r :: rest => { q with replies := rest, sending := some (.reply r) }
      | [] =>
        match q.refused with
        | r :: rest => { q with refused := rest, sending := some (.reply r) }
        | [] =>
          match q.notices with
          | n :: rest => { q with notices := rest, sending := some (.notice n) }
          | [] => q

/-- A due rate setting is applied at the first moment the port neither sends nor assembles a frame (R195). -/
def PortState.applyRate (q : PortState) : PortState :=
  match q.rateDue with
  | some r =>
    if q.sending.isNone && decide (q.receive = .hunt) then { q with rate := r, rateDue := none } else q
  | none => q

/-- The Console Port's transmitter has taken a reply: the replies behind it move up by one (R195). -/
def RateWrite.movedUp (w : RateWrite) : RateWrite :=
  match w.stage with
  | .queued 0 => { w with stage := .sending }
  | .queued (n + 1) => { w with stage := .queued n }
  | _ => w

/-- The end of a step: each transmitter that is idle takes its next frame, and due rates are applied. -/
def settlePorts (s : State) : State :=
  let taken := s.ports.console.takeNext
  { s with ports := { s.ports with
      access := s.ports.access.takeNext.applyRate
      fire := s.ports.fire.takeNext.applyRate
      console := taken.applyRate
      rateWrites := if taken.replies.length < s.ports.console.replies.length
        then s.ports.rateWrites.map RateWrite.movedUp else s.ports.rateWrites } }

/-- A command acts while the part is serving, and its step ends with the transmitters. While power is off or the reset
pin is asserted the part makes no decision and serves no request (R207): nothing happens. -/
def served (f : State → State) (s : State) : Out :=
  .next (if s.serving then settlePorts (f s) else s)

/-- A frame that is found valid began in HUNT (R187): while its receiver has a frame half assembled, the start byte of
another is data of that one, and the command is not a frame's arrival (log 6). -/
def onFrame (p : Port) (f : State → State) (s : State) : State :=
  if (s.port p).receive = .hunt then f (frameArrived p s) else s

/-- A request command: its frame arrives and is taken (R187, R188). -/
def request (h : Head) (code : Nat) (run : State → State) (s : State) : Out :=
  served (onFrame h.port (takeRequest h code run)) s

end Sys2Proof.Machine
end

