-- ==== Sys2Proof/Machine/Operands.lean ====
section
/-! DEFINITION. From the values a frame carries to the records the part holds, and back: names from their positions
(R200), the malformed credentials of R64, the clamping and the inert windows of the configuration records, and the
values in which a reply shows a record. -/

namespace Sys2Proof.Machine

/-! ### Names by position (R200) -/

def zoneClasses : List ZoneClass := [.strongroom, .reading, .store, .plant, .circulation]
def doorClasses : List DoorClass := [.strongroom, .interior, .perimeter]
def passbacks : List Passback := [.hard, .soft]
def failModes : List FailMode := [.secure, .free]
def nodeTypes : List NodeType := [.none, .door, .detector, .station, .pendant]
def circuitFns : List CircuitFn := [.none, .abort, .manualRelease, .call, .checkIn]
def crossSets : List CrossSet := [.x, .y]
def warnKinds : List WarnKind := [.sounder, .sign]
def credClasses : List CredClass := [.custodian, .conservator, .staff, .contractor, .guard]
def rights : List Right := [.none, .withGrant, .standing]

/-- All of a list, when every element has a value. -/
def allSome {α : Type} : List (Option α) → Option (List α)
  | [] => some []
  | none :: _ => none
  | some a :: t => (allSome t).map (a :: ·)

/-! ### Credentials -/

/-- A valid credential number: 1..16 777 214 (R64). -/
def numberValid (n : Nat) : Bool := 1 ≤ n && n ≤ Config.credentialMax

/-- The record offered, or none where it is malformed (R64). -/
def formCredential (r : RawCredential) : Option Credential :=
  match credClasses[r.cls]?, rights[r.right]? with
  | some cls, some right =>
    if numberValid r.number && !r.perms.getLsbD 0 then
      some ⟨r.number, cls, r.perms, right, r.pendant, r.enabled, r.exempt, r.guarded⟩
    else none
  | _, _ => none

/-- One field change applied to a record, or none where the new value would make it malformed or the field is not one
of the eight of R64 (R76, R79). -/
def applyChange (c : FieldChange) (r : Credential) : Option Credential :=
  match c with
  | .number n => if numberValid n then some { r with number := n } else none
  | .cls k => (credClasses[k]?).map fun k => { r with cls := k }
  | .perms zs => if zs.getLsbD 0 then none else some { r with perms := zs }
  | .right k => (rights[k]?).map fun k => { r with right := k }
  | .pendant n => some { r with pendant := n }
  | .enabled yes => some { r with enabled := yes }
  | .exempt yes => some { r with exempt := yes }
  | .guarded yes => some { r with guarded := yes }
  | .undefined _ => none

/-- Every change applied in the order of the request (R79), so that the last value of a field named twice stands
(log 61). -/
def applyChanges : List FieldChange → Credential → Option Credential
  | [], r => some r
  | c :: cs, r => (applyChange c r).bind (applyChanges cs)

/-- Whether a change sets the protected field to yes (R80). -/
def setsGuarded (c : FieldChange) : Bool := decide (c = .guarded true)

/-- A record against which the changes of a Modify are judged at the taking: R76 asks only about the new values. -/
def Credential.sample : Credential := ⟨1, .staff, 0, .none, 0, true, false, false⟩

/-! ### Configuration records: the value stored, and whether something was brought into range -/

/-- A number and whether it had to be brought into its range. -/
def clamped (lo hi n : Nat) : Nat × Bool := (clamp lo hi n, !(clamp lo hi n == n))

/-- The zone record that R1 stores, or none where R1 refuses the fields themselves. For an untracked zone the capacity,
interval and grace are not used and are stored as 0, and whatever was offered in them brings no value into range (log
50). -/
def zoneOf (r : RawZone) : Option (ZoneRec × Bool) :=
  match zoneClasses[r.cls]? with
  | none => none
  | some cls =>
    if r.schedule > 7 || (r.group.any (· > 3)) then none
    else if !r.tracked && (decide (cls = .strongroom) || r.group.isSome) then none
    else if !r.tracked then some (⟨false, cls, r.schedule, r.group, 0, 0, 0⟩, false)
    else
      let cap := clamped 1 64 r.capacity
      let int := if r.interval == 0 then (0, false) else clamped 5 60 r.interval
      let gr := clamped 1 10 r.grace
      some (⟨true, cls, r.schedule, r.group, cap.1, int.1, gr.1⟩, cap.2 || int.2 || gr.2)

/-- A window after R5's clamping, none when it is inert, and whether it was clamped. Only the marks of the seven days
are kept. -/
def windowOf (r : RawWindow) : Option Window × Bool :=
  let a := clamped 0 1439 r.start
  let b := clamped 1 1440 r.stop
  let mask := r.mask &&& 0x7F#8
  (if a.1 ≥ b.1 || mask = 0 then none else some ⟨mask, a.1, b.1⟩, a.2 || b.2)

/-- A schedule of four windows (R5). -/
def scheduleOf : List RawWindow → Option (Schedule × Bool)
  | [a, b, c, d] =>
    let wa := windowOf a
    let wb := windowOf b
    let wc := windowOf c
    let wd := windowOf d
    some (⟨wa.1, wb.1, wc.1, wd.1⟩, wa.2 || wb.2 || wc.2 || wd.2)
  | _ => none

/-- The door record that R35 stores, or none where a name is undefined or a zone out of range. W of a door that is not
a strongroom door is stored as written; a FREE fail mode of a strongroom door is stored as SECURE. -/
def doorOf (r : RawDoor) : Option (DoorRec × Bool) :=
  match doorClasses[r.cls]?, passbacks[r.passback]?, failModes[r.failMode]? with
  | some cls, some pb, some fm =>
    if r.sideA > 15 || r.sideB == 0 || r.sideB > 15 || r.node > Config.nodeMax then none
    else
      let u := clamped 10 300 r.u
      let h := clamped 50 3000 r.h
      let w := if cls = .strongroom then clamped 50 300 r.w else (r.w, false)
      let f := if cls = .strongroom then (FailMode.secure, decide (fm = .free)) else (fm, false)
      some (⟨r.sideA, r.sideB, cls, r.node, pb, u.1, h.1, w.1, f.1⟩, u.2 || h.2 || w.2 || f.2)
  | _, _, _ => none

/-- The node record that R153 stores: the zone of a STATION or PENDANT node, the functions of a STATION node. What stands
in the zone field of another type is not stored (log 109). -/
def nodeOf (r : RawNode) : Option NodeRec :=
  match nodeTypes[r.type]?, allSome (r.functions.map fun f => circuitFns[f]?) with
  | some ty, some fns =>
    let zoned := decide (ty = .station) || decide (ty = .pendant)
    if zoned && (r.zone == 0 || r.zone > 15) then none
    else if r.functions.length > 16 then none
    else if !decide (ty = .station) && fns.any (· != .none) then none
    else some ⟨ty, if zoned then r.zone else 0, if ty = .station then fns else []⟩
  | _, _ => none

/-- A list of points with marks, or none where a mark is undefined (R105). -/
def pointsOf {α : Type} (marks : List α) (ps : List RawPoint) : Option (List (Nat × α)) :=
  allSome (ps.map fun p => (marks[p.mark]?).map fun m => (p.point, m))

/-- The group record that R105 stores, or none where its own fields are wrong in structure; what R105 asks of other
records is asked by the write. -/
def groupOf (r : RawGroup) : Option (GroupRec × Bool) :=
  match pointsOf crossSets r.detectors, pointsOf warnKinds r.warnings with
  | some ds, some ws =>
    if r.detectors.length > 32 || r.warnings.length > 16 || r.pair > 3 || r.zones.getLsbD 0 then none
    else
      let b := clamped 100 600 r.b
      let a := clamped 0 150 r.a
      let c := clamped 1 16 r.c
      let dmax := clamped 300 1200 r.dmax
      let rmin := clamped 50 300 r.rmin
      let bm := clamped 100 300 r.bm
      let sl := clamped 0 600 r.s
      let p := clamped 10 300 r.p
      some (⟨b.1, a.1, c.1, dmax.1, rmin.1, bm.1, sl.1, p.1, ds, r.pair, ws⟩,
        b.2 || a.2 || c.2 || dmax.2 || rmin.2 || bm.2 || sl.2 || p.2)
  | _, _ => none

/-- The loop timing record that R171 stores. -/
def timingOf (r : RawTiming) : LoopTiming × Bool :=
  let tr := clamped 2 50 r.tr
  let rr := clamped 0 5 r.r
  let l := clamped 1 15 r.l
  let g := clamped 1 15 r.g
  let n := clamped 2 15 r.n
  let k := clamped 0 15 r.k
  (⟨tr.1, rr.1, l.1, g.1, ⟨n.1, k.1⟩⟩, tr.2 || rr.2 || l.2 || g.2 || n.2 || k.2)

/-- A line rate as R195 stores it. -/
def rateOf (r : Rate) : Rate × Bool :=
  let n := clamped 2 15 r.n
  let k := clamped 0 15 r.k
  (⟨n.1, k.1⟩, n.2 || k.2)

/-- The divisor of the line rate law (R172): 16N for K = 0, and 16N + 16 - K otherwise. -/
def rateDivisor (r : Rate) : Nat := if r.k = 0 then 16 * r.n else 16 * r.n + 16 - r.k

/-! ### Records as reply values (R200): the fields in the order of the rule's table -/

def rateVals (r : Rate) : List Val := [.u8 r.n, .u8 r.k]

/-- A group field: 0..3, or the free value for "none" (log 22). -/
def groupField (g : Option Nat) : Nat := g.getD Config.noGroupCode

def ZoneRec.vals (r : ZoneRec) : List Val :=
  [Val.named r.tracked, .u8 r.cls.ctorIdx, .u8 r.schedule, .u8 (groupField r.group), .u8 r.capacity, .u16 r.interval,
   .u16 r.grace]

/-- A window; an empty one is sent as the day mask 0, the start 0 and the end 0 (R5, log 76). -/
def windowVals (w : Option Window) : List Val :=
  match w with
  | some w => [.u8 w.mask.toNat, .u16 w.start, .u16 w.stop]
  | none => [.u8 0, .u16 0, .u16 0]

def Schedule.vals (r : Schedule) : List Val := windowVals r.w0 ++ windowVals r.w1 ++ windowVals r.w2 ++ windowVals r.w3

def DoorRec.vals (r : DoorRec) : List Val :=
  [.u8 r.sideA, .u8 r.sideB, .u8 r.cls.ctorIdx, .u8 r.node, .u8 r.passback.ctorIdx, .u16 r.u, .u16 r.h, .u16 r.w,
   .u8 r.failMode.ctorIdx]

def NodeRec.vals (r : NodeRec) : List Val :=
  [.u8 r.type.ctorIdx, .u8 r.zone] ++ allCircuits.map fun c => .u8 (((r.functions[c]?).getD .none).ctorIdx)

/-- A set of zones with bit z standing for zone z (R200). -/
def zoneBits (zs : List Nat) : Nat := (zs.map fun z => 2 ^ z).sum

/-- A list of values is sent with its count ahead (log 22). -/
def counted (items : List (List Val)) : List Val := .u8 items.length :: items.flatten

def GroupRec.vals (zones : List Nat) (r : GroupRec) : List Val :=
  [.u16 (zoneBits zones), .u16 r.b, .u16 r.a, .u8 r.c, .u16 r.dmax, .u16 r.rmin, .u16 r.bm, .u16 r.s, .u16 r.p] ++
    counted (r.detectors.map fun d => [.u16 d.1, .u8 d.2.ctorIdx]) ++ [.u8 r.pair] ++
    counted (r.warnings.map fun w => [.u16 w.1, .u8 w.2.ctorIdx])

def LoopTiming.vals (r : LoopTiming) : List Val :=
  [.u8 r.tr, .u8 r.r, .u8 r.l, .u8 r.g] ++ rateVals r.rate

def Credential.vals (c : Credential) : List Val :=
  [.u24 c.number, .u8 c.cls.ctorIdx, .u16 c.perms.toNat, .u8 c.right.ctorIdx, .u16 c.pendant, Val.named c.enabled,
   Val.named c.exempt, Val.named c.guarded]

end Sys2Proof.Machine
end

