-- ==== Sys2Proof/Machine/Layouts.lean ====
section
/-! DEFINITION. What crosses a station port as bytes (R200, R201): the CRC, the frames the part sends, and the receiver
that assembles the bytes it is sent (R187). And what crosses the field loop as characters (R156, R157): their bits, and
the reply that a node's characters spell (R159, R200). -/

namespace Sys2Proof.Machine

/-! ### The CRC (R201) -/

/-- One step of the CRC register for a data bit. -/
def crcBit (r : Word16) (bit : Bool) : Word16 :=
  if r.getLsbD 15 == bit then r <<< 1 else (r <<< 1) ^^^ 0x1021#16

/-- The bits of a byte, the most significant first. -/
def byteBits (b : Byte) : List Bool := [7, 6, 5, 4, 3, 2, 1, 0].map b.getLsbD

/-- The CRC over bytes, from FFFFh. -/
def crc (bs : List Byte) : Word16 := (bs.flatMap byteBits).foldl crcBit 0xFFFF#16

/-- A 16-bit value, high byte first. -/
def wordBytes (w : Word16) : List Byte := [(w >>> 8).setWidth 8, w.setWidth 8]

/-! ### Frames as sent (R200) -/

def Val.bytes : Val → List Byte
  | .u8 n => [BitVec.ofNat 8 n]
  | .u16 n => wordBytes (BitVec.ofNat 16 n)
  | .u24 n => BitVec.ofNat 8 (n / 65536) :: wordBytes (BitVec.ofNat 16 n)

/-- The code byte of a result (section 10.7); ZONE-FULL has none in the table (log 23). -/
def Result.code : Result → Nat
  | .zoneFull => Config.zoneFullCode
  | r => r.ctorIdx

/-- The kind, tag, code and parameters of a frame. -/
def Frame.body : Frame → List Byte
  | .busy tag code => [0x02#8, BitVec.ofNat 8 tag, BitVec.ofNat 8 Result.busy.code, BitVec.ofNat 8 code]
  | .reply r =>
    [0x02#8, BitVec.ofNat 8 r.tag, BitVec.ofNat 8 r.result.code, BitVec.ofNat 8 r.code] ++ r.results.flatMap Val.bytes
  | .notice n =>
    [0x03#8, 0x00#8, BitVec.ofNat 8 n.type.category, BitVec.ofNat 8 n.type.code] ++ n.values.flatMap Val.bytes

/-- A frame on the line: the start byte, the length, the body and the CRC. The length byte of a body that is too long is
its length modulo 256 (log 101). -/
def Frame.bytes (f : Frame) : List Byte :=
  let guarded := BitVec.ofNat 8 f.body.length :: f.body
  0xA5#8 :: guarded ++ wordBytes (crc guarded)

/-! ### The receiver (R187) -/

/-- The receiver takes one byte: its new state, and the body of a valid frame where the byte completes one. -/
def Receive.take (b : Byte) : Receive → Receive × Option (List Byte)
  | .hunt => (if b = 0xA5#8 then .length else .hunt, none)
  | .length => (if 3 ≤ b.toNat ∧ b.toNat ≤ 250 then .body b.toNat [] else .hunt, none)
  | .body len bs =>
    let bs := bs ++ [b]
    (if bs.length = len then .check len bs [] else .body len bs, none)
  | .check len bs [] => (.check len bs [b], none)
  | .check len bs c =>
    (.hunt, if c ++ [b] = wordBytes (crc (BitVec.ofNat 8 len :: bs)) then some bs else none)

/-- The receiver takes bytes, and whatever frame they complete is discarded. -/
def Receive.takeAll (r : Receive) (bs : List Byte) : Receive := bs.foldl (fun r b => (r.take b).1) r

/-- One of the bytes completes a valid frame. -/
def Receive.completes : Receive → List Byte → Bool
  | _, [] => false
  | r, b :: bs => (r.take b).2.isSome || (r.take b).1.completes bs

/-! ### Loop characters (R156, R157) -/

/-- An odd number of the bits are ones. -/
def oddOnes (bs : List Bool) : Bool := bs.foldl xor false

/-- The data bits of a character, the least significant first. -/
def dataBits (b : Byte) : List Bool := (byteBits b).reverse

/-- The twelve bits of a character as it is sent: start bit, data, mark, even parity over the data, stop bit. -/
def LoopChar.bits (c : LoopChar) : List Bool :=
  false :: dataBits c.data ++ [c.mark, oddOnes (dataBits c.data), true]

/-- A bit from its three samples (R157). -/
def majority (a b c : Bool) : Bool := (a && b) || (a && c) || (b && c)

/-- The byte whose data bits these are, the least significant first. -/
def byteOfBits (bs : List Bool) : Byte := BitVec.ofNat 8 ((bs.zipIdx.map fun b => if b.1 then 2 ^ b.2 else 0).sum)

/-- A character from its twelve bits as received: faulty where its parity or its stop bit says so (R157), parity being
reported where both do (log 71). An overrun is no matter of the bits. -/
def readChar (bits : List Bool) : Except CharFault LoopChar :=
  let data := (bits.drop 1).take 8
  if oddOnes (data ++ (bits.drop 10).take 1) then .error .parity
  else if bits[11]? = some true then .ok ⟨bits[9]?.getD false, byteOfBits data⟩
  else .error .framing

/-! ### Station characters (R195) -/

/-- The ten bits of a character of a station port: start bit, data, no parity, stop bit. -/
def stationBits (b : Byte) : List Bool := false :: dataBits b ++ [true]

/-- The bits of a frame on a port's line. -/
def Frame.bits (f : Frame) : List Bool := f.bytes.flatMap stationBits

/-- A character of a station port from its ten bits as received: none where its stop bit is 0, a framing fault (R187). -/
def readStationChar (bits : List Bool) : Option Byte :=
  if bits[9]? = some true then some (byteOfBits ((bits.drop 1).take 8)) else none

/-- The check character: 256 minus the byte sum, modulo 256 (R158). -/
def checkByte (bs : List Byte) : Byte := BitVec.ofNat 8 (256 - ((bs.map BitVec.toNat).sum % 256))

/-! ### A node's reply (R159, R200) -/

def readings : List Reading := [.normal, .active, .openFault, .shortFault]

/-- The readings of four circuits from one character, the lowest circuit in its lowest pair. -/
def byteReadings (b : Byte) : List Reading :=
  [0, 1, 2, 3].map fun k => (readings[(b.toNat / 4 ^ k) % 4]?).getD .normal

/-- The presentations of event form 0: flags and a credential number in 3 characters. -/
def readPresentations : List Byte → List Presentation
  | f :: a :: b :: c :: t =>
    ⟨(a.toNat * 256 + b.toNat) * 256 + c.toNat, if f.getLsbD 0 then .b else .a, f.getLsbD 1⟩ :: readPresentations t
  | _ => []

/-- The pendant reports of event form 1. -/
def readReports : List Byte → List Nat
  | a :: b :: t => (a.toNat * 256 + b.toNat) :: readReports t
  | _ => []

/-- The events of a READY reply, by its event form. -/
def readEvents (reports : Bool) (bs : List Byte) : Except ReplyFault LoopEvents :=
  let width := if reports then 2 else 4
  if bs.length % width ≠ 0 then .error .notWholeEvents
  else if bs.length / width > 4 then .error .tooManyEvents
  else .ok (if reports then .reports (readReports bs) else .presentations (readPresentations bs))

/-- The contents of a reply whose characters pass the tests of form, as an answer to the command. The data characters of a
BUSY reply, of which R159 has none, are not looked at (log 57). -/
def readContents (c : Command) (status : Byte) (data : List Byte) : Except ReplyFault LoopReply :=
  let ready := status.toNat / 64 == 1
  match c with
  | .poll =>
    if !ready then .ok .busy
    else if data.length < 4 then .error .tooShort
    else (readEvents (status.getLsbD 5) (data.drop 4)).map fun ev =>
      .ready (status.getLsbD 4) ((data.take 4).reverse.flatMap byteReadings) ev
  | .test _ =>
    match data with
    | [b] => if ready then .ok (.echo b) else .error .testReply
    | _ => .error .testReply

/-- What the characters received so far of a reply come to. -/
inductive ReplyRead where
  | incomplete | fails (f : ReplyFault) | good (r : LoopReply)
  deriving DecidableEq, Repr

/-- The characters after the status character: the data and the check character. -/
def readRest (c : Command) (n : Nat) (status : Byte) (rest : List LoopChar) : ReplyRead :=
  let body := rest.take (status.toNat % 16 + 1)
  let bytes := body.map (·.data)
  if body.any (·.mark) then .fails .laterMark
  else if body.length < status.toNat % 16 + 1 then .incomplete
  else if (n + status.toNat + (bytes.map BitVec.toNat).sum) % 256 ≠ 0 then .fails .byteSum
  else
    match readContents c status bytes.dropLast with
    | .ok r => .good r
    | .error f => .fails f

/-- The reply of the polled node `n` to a command, judged character by character in the order of R159; characters beyond
the reply's own count are not waited for. -/
def readReply (c : Command) (n : Nat) : List LoopChar → ReplyRead
  | [] => .incomplete
  | a :: rest =>
    if !a.mark then .fails .firstMark
    else if a.data.toNat ≠ n then .fails .address
    else
      match rest with
      | [] => .incomplete
      | st :: rest =>
        if st.mark then .fails .laterMark
        else if st.data.toNat % 16 > 14 then .fails .count
        else if st.data.toNat / 64 = 0 ∨ st.data.toNat / 64 = 3 then .fails .kind
        else readRest c n st.data rest

/-- The command that the characters of a reply bring, once they decide it. -/
def decodeReply (c : Command) (n : Nat) (cs : List LoopChar) : Option Instr :=
  match readReply c n cs with
  | .incomplete => none
  | .fails f => some (.attemptFailsOnReply f)
  | .good r => some (.goodReply r)

end Sys2Proof.Machine
end

