-- ==== Sys2Proof/Machine/Flags.lean ====
section
/-! DEFINITION. The conditions that are computed from the state and never stored: the schedules' test, the roster's
counts, the doors' known-closed value and overlays, the circuits' activity, the delays, the points' owners and the
output image. -/

namespace Sys2Proof.Machine

/-! ### After-hours test (01) -/

/-- Whether a window covers minute `m` of day `d` (R5). -/
def windowCovers (d m : Nat) (w : Option Window) : Bool :=
  match w with
  | none => false
  | some w => w.mask.getLsbD d && w.start ≤ m && m < w.stop

def Schedule.covers (r : Schedule) (d m : Nat) : Bool :=
  windowCovers d m r.w0 || windowCovers d m r.w1 || windowCovers d m r.w2 || windowCovers d m r.w3

/-- The day index of the current time of week. -/
def Clock.day (c : Clock) : Nat := c.timeOfWeek / Config.dayMinutes

/-- The test of R6 for a zone, from the clock, the closure-day flag and the schedules as they stand. -/
def afterHoursNow (s : State) (z : Nat) : Bool :=
  !s.clock.timeKnown || s.clock.closureDay.isSome ||
    !(s.config.schedule (s.config.zone z).schedule).covers s.clock.day (s.clock.timeOfWeek % Config.dayMinutes)

/-- The kept after-hours status; zone 0 is not after-hours at any time (R3). -/
def keptAfterHours (s : State) (z : Nat) : Bool := !(z == 0) && (s.zone z).afterHours

def tracked (s : State) (z : Nat) : Bool := (s.config.zone z).tracked

/-! ### The roster's counts and questions (02) -/

/-- The occupancy of a zone: the census of the slots whose zone it is (R18); zone 0 has none at any time. -/
def occupancy (s : State) (z : Nat) : Nat := if z = 0 then 0 else s.roster.countP fun e => e.2.zone == some z

/-- The committed count of a tracked zone (R18); zone 0 and untracked zones have 0 at all times. -/
def committed (s : State) (z : Nat) : Nat :=
  if tracked s z then occupancy s z + s.roster.countP fun e => e.2.pendZone == some z else 0

/-- The slot numbers 0..127. -/
def allSlots : List Nat := List.range Config.rosterSlots

/-- The lowest FREE slot (R17). -/
def lowestFree (s : State) : Option Nat := allSlots.find? fun i => decide ((s.slot i).state = .free)

/-- The number of FREE slots. -/
def freeSlots (s : State) : Nat := allSlots.countP fun i => decide ((s.slot i).state = .free)

/-- The slot that holds a credential number (R17: at most one). -/
def holder (s : State) (c : Nat) : Option Nat :=
  allSlots.find? fun i => !decide ((s.slot i).state = .free) && (s.slot i).credential == c

/-- The answer to a position question (R20). -/
inductive Position where
  | inZone (z : Nat) | outside | inPassage
  deriving DecidableEq, Repr

def position (s : State) (c : Nat) : Position :=
  match holder s c with
  | none => .outside
  | some i =>
    match (s.slot i).state, (s.slot i).zone with
    | .present, some z => .inZone z
    | _, _ => .inPassage

/-- The answer to a fit question (R21). -/
inductive Fit where
  | fits | zoneFull | rosterFull
  deriving DecidableEq, Repr

/-- Can these entrants be reserved into the tracked zone `t`? (R21) -/
def fit (s : State) (t : Nat) (entrants : List Nat) : Fit :=
  let places := entrants.countP fun c => !decide (position s c = .inZone t)
  let slots := entrants.countP fun c => decide (position s c = .outside)
  if committed s t + places > (s.config.zone t).capacity then .zoneFull
  else if freeSlots s < slots then .rosterFull
  else .fits

/-! ### Groups, zones and doors (03, 06) -/

/-- The states that bring egress-only (R55). -/
def GroupState.egressOnly : GroupState → Bool
  | .countdown | .held | .sealWait | .releasing | .discharged => true
  | _ => false

/-- The states in which a recompute acts (R116). -/
def GroupState.counting : GroupState → Bool
  | .countdown | .held | .sealWait => true
  | _ => false

/-- NORMAL or LOCKOUT, the states in which records of a group may be written (R2, R105, R153, R174). -/
def GroupState.quiet : GroupState → Bool
  | .normal | .lockout => true
  | _ => false

def zoneGroup (s : State) (z : Nat) : Option Nat := (s.config.zone z).group

/-- The zones of a group: those whose group field names it (R1). -/
def Records.groupZones (r : Records) (g : Nat) : List Nat := allZones.filter fun z => (r.zone z).group == some g
def groupZones (s : State) (g : Nat) : List Nat := s.config.groupZones g

/-- A zone under egress-only (R55). -/
def zoneSealed (s : State) (z : Nat) : Bool :=
  match zoneGroup s z with
  | none => false
  | some g => (s.group g).state.egressOnly

def zoneLocked (s : State) (z : Nat) : Bool := !(z == 0) && (s.zone z).lockdown

/-- A fitted door names a node (R35). -/
def fitted (s : State) (d : Nat) : Bool := !((s.config.door d).node == 0)

/-- The door that names a node (R35: at most one). -/
def doorOfNode (s : State) (n : Nat) : Option Nat :=
  if n = 0 then none else allDoors.find? fun d => (s.config.door d).node == n

def nodeType (s : State) (n : Nat) : NodeType := (s.config.node n).type
def configured (s : State) (n : Nat) : Bool := !decide (nodeType s n = .none)
def online (s : State) (n : Nat) : Bool := decide ((s.node n).sup = .online)
def lost (s : State) (n : Nat) : Bool := decide ((s.node n).sup = .lost)

/-- A circuit's reading in the input image, none while unreported (R154). -/
def reading (s : State) (n c : Nat) : Option Reading := (s.node n).input[c]?

/-- The contact's value from its reading: a fault is taken as OPEN (R39). -/
def contactOf : Option Reading → Contact
  | none => .unknown
  | some .normal => .closed
  | some _ => .open

/-- A door is known closed (R39). -/
def knownClosed (s : State) (d : Nat) : Bool :=
  online s (s.config.door d).node && decide ((s.door d).contact = .closed) &&
    match (s.door d).state with
    | .secure | .pairWait | .released => true
    | _ => false

/-- The doors of a group: the fitted doors with a side in one of its zones (R56). -/
def groupDoors (s : State) (g : Nat) : List Nat :=
  allDoors.filter fun d => fitted s d &&
    (zoneGroup s (s.config.door d).sideA == some g || zoneGroup s (s.config.door d).sideB == some g)

/-- The group's doors that are not known closed (R107). -/
def notClosed (s : State) (g : Nat) : List Nat := (groupDoors s g).filter fun d => !knownClosed s d

/-- The zone a reader side faces, and the zone of the other side (R37). -/
def DoorRec.facing (r : DoorRec) : Side → Nat
  | .a => r.sideA
  | .b => r.sideB
def DoorRec.beyond (r : DoorRec) : Side → Nat
  | .a => r.sideB
  | .b => r.sideA

/-- A presentation at this side is egress (R37). -/
def DoorRec.isEgress (r : DoorRec) (side : Side) : Bool :=
  r.beyond side == 0 || (decide (r.cls = .strongroom) && decide (side = .b))

/-- A door under egress-only or under lockdown, for either of its sides (R55, R60). -/
def doorSealed (s : State) (d : Nat) : Bool :=
  zoneSealed s (s.config.door d).sideA || zoneSealed s (s.config.door d).sideB
def doorLocked (s : State) (d : Nat) : Bool :=
  zoneLocked s (s.config.door d).sideA || zoneLocked s (s.config.door d).sideB

def DoorVol.deciding (v : DoorVol) : Bool := v.decA.isSome || v.decB.isSome

/-! ### Circuits of a group (06) -/

/-- A detector point is active (R106). -/
def detActive (s : State) (pt : Nat) : Bool :=
  online s (pt / 16) && reading s (pt / 16) (pt % 16) == some .active

def isFault (r : Option Reading) : Bool := r == some .openFault || r == some .shortFault

/-- A detector point reads as a fault; every circuit of a LOST node does (R106). -/
def detFault (s : State) (pt : Nat) : Bool := lost s (pt / 16) || isFault (reading s (pt / 16) (pt % 16))

/-- The active detector points of one set (R109). -/
def activeOf (s : State) (g : Nat) (set : CrossSet) : List Nat :=
  ((s.config.group g).detectors.filter fun d => decide (d.2 = set) && detActive s d.1).map (·.1)

def anyActive (s : State) (g : Nat) : Bool := (s.config.group g).detectors.any fun d => detActive s d.1

/-- Cross-confirmation stands (R109). -/
def crossStands (s : State) (g : Nat) : Bool := !(activeOf s g .x).isEmpty && !(activeOf s g .y).isEmpty

/-- The record by which the circuits of a node are read: a write of its zone or functions takes effect at the next change
handed on from the node (R153, log 74). -/
def nodeRec (s : State) (n : Nat) : NodeRec := ((s.node n).readBy).getD (s.config.node n)

/-- The function of a circuit of a STATION node (R153). -/
def circuitFn (s : State) (n c : Nat) : CircuitFn :=
  if nodeType s n = .station then ((nodeRec s n).functions[c]?).getD .none else .none

/-- The station nodes standing in a zone of the group (R106). -/
def groupStations (s : State) (g : Nat) : List Nat :=
  allNodes.filter fun n => decide (nodeType s n = .station) && zoneGroup s (nodeRec s n).zone == some g

/-- The points of the group's circuits with a function, in point order. -/
def groupCircuits (s : State) (g : Nat) (fn : CircuitFn) : List Nat :=
  (groupStations s g).flatMap fun n =>
    (allCircuits.filter fun c => decide (circuitFn s n c = fn)).map fun c => n * 16 + c

/-- An abort circuit is held (R106, R120). -/
def abortHeld (s : State) (pt : Nat) : Bool :=
  reading s (pt / 16) (pt % 16) == some .active &&
    (online s (pt / 16) || (lost s (pt / 16) && !s.release.holdMarks.contains (pt / 16)))

def heldAborts (s : State) (g : Nat) : List Nat := (groupCircuits s g .abort).filter (abortHeld s)

/-- A hold is in force (R117). -/
def holdInForce (s : State) (g : Nat) : Bool := (s.group g).panelHold || !(heldAborts s g).isEmpty

/-! ### Countdown arithmetic (06) -/

/-- The unlocated alarm records of a zone (R112). -/
def unlocatedIn (s : State) (z : Nat) : Nat := s.alarms.records.countP fun r => r.unlocated && r.key.zone == z

/-- The effective occupants of a group (R112). -/
def nEff (s : State) (g : Nat) : Nat := ((groupZones s g).map fun z => occupancy s z + unlocatedIn s z).sum

def anyUnknown (s : State) (g : Nat) : Bool := (groupZones s g).any fun z => (s.zone z).occUnknown

/-- The delay from a base (R113). -/
def delayFrom (s : State) (g base : Nat) : Nat :=
  let r := s.config.group g
  if anyUnknown s g then r.dmax else min r.dmax (base + r.a * min (nEff s g) r.c)

/-- The delay D and the manual delay Dm (R113). -/
def delayD (s : State) (g : Nat) : Nat := delayFrom s g (s.config.group g).b
def delayM (s : State) (g : Nat) : Nat := delayFrom s g (s.config.group g).bm

/-! ### Points and the output image (09) -/

/-- The owner of an output point (R181). -/
inductive Owner where
  | none | lock (d : Nat) | warning (g : Nat) (k : WarnKind)
  deriving DecidableEq, Repr

/-- The warning output entry of a group for a point. -/
def warningAt (s : State) (pt g : Nat) : Option WarnKind :=
  ((s.config.group g).warnings.find? fun w => w.1 == pt).map (·.2)

def outputOwner (s : State) (pt : Nat) : Owner :=
  let lockOf := if pt % 16 = 0 ∧ nodeType s (pt / 16) = .door then doorOfNode s (pt / 16) else none
  match lockOf with
  | some d => .lock d
  | none =>
    match allGroups.find? fun g => (warningAt s pt g).isSome with
    | some g => match warningAt s pt g with
      | some k => .warning g k
      | none => .none
    | none => .none

/-- The group that suspends the override entry of a point, if any (R184): one to which the output belongs and that is in
egress-only; where there are two, the lowest (log 108). It follows the group's state at once, so that at an onset the entry
is suspended before the doors are dealt with (log 121). -/
def suspendedBy (s : State) (pt : Nat) : Option Nat :=
  match outputOwner s pt with
  | .none => none
  | .lock d => allGroups.find? fun g => (s.group g).state.egressOnly && (groupDoors s g).contains d
  | .warning _ _ => allGroups.find? fun g => (s.group g).state.egressOnly && (warningAt s pt g).isSome

/-- The effective state of an output (R181, R184). -/
def effective (s : State) (pt : Nat) : Bool :=
  match s.override pt with
  | .none => s.base pt
  | o => if (suspendedBy s pt).isSome then s.base pt else decide (o = .forceOn)

/-- The output image of a node (R154): its 16 outputs, and for a DOOR node the two reader responses and the fail mode
of its door. -/
structure Image where
  outputs : List Bool
  respA : Response
  respB : Response
  failMode : FailMode
  deriving DecidableEq, Repr

def image (s : State) (n : Nat) : Image :=
  let outs := allCircuits.map fun c => effective s (n * 16 + c)
  match (if nodeType s n = .door then doorOfNode s n else none) with
  | some d => ⟨outs, (s.door d).respA, (s.door d).respB, (s.config.door d).failMode⟩
  | none => ⟨outs, .idle, .idle, .secure⟩

/-- The lock of a door is held unlocked by an override that is applied (R54, R184). -/
def overrideUnlocks (s : State) (d : Nat) : Bool :=
  let pt := (s.config.door d).node * 16
  decide (s.override pt = .forceOn) && (suspendedBy s pt).isNone

/-! ### The loop test (09) and the settings in use -/

/-- The test runs on the node. -/
def testing (s : State) (n : Nat) : Bool :=
  match s.loopTest with
  | some t => t.cause.isNone && t.node == n
  | none => false

/-- The groups of a node (R174), by its record as written (log 74). -/
def groupsOfNode (s : State) (n : Nat) : List Nat :=
  match nodeType s n with
  | .none => []
  | .detector => allGroups.filter fun g => (s.config.group g).detectors.any fun d => d.1 / 16 == n
  | .station | .pendant => allGroups.filter fun g => zoneGroup s (s.config.node n).zone == some g
  | .door =>
    match doorOfNode s n with
    | none => []
    | some d => allGroups.filter fun g =>
        zoneGroup s (s.config.door d).sideA == some g || zoneGroup s (s.config.door d).sideB == some g

/-- The scrub interval and the escalation period in use: the defaults while the configuration is INVALID (R82, R147). -/
def scrubInterval (s : State) : Nat := if s.configValid then s.config.scrubInterval else 20
def escalationPeriod (s : State) : Nat := if s.configValid then s.config.escalation else 1200

end Sys2Proof.Machine
end

