-- ==== Sys2Proof/Machine/Points.lean ====
section
/-! DEFINITION. The urgent queue (R165), the writing of desired output states (R181), and the end of a loop test
(R179). -/

namespace Sys2Proof.Machine

/-- A change of a node's output image puts an urgent entry for it (R165): an entry already queued keeps its place, a
full queue takes none, and none is put for a node under test. The entry carries the current image by construction. -/
def Loop.queueUrgent (n : Nat) (l : Loop) : Loop :=
  if l.urgent.contains n then l
  else if l.urgent.length < Config.urgentMax then { l with urgent := l.urgent ++ [n] }
  else l

def putUrgent (n : Nat) (s : State) : State :=
  if testing s n then s else { s with loop := s.loop.queueUrgent n }

/-- Put urgent entries for those of the nodes whose output image is not what it was (R154, R165). -/
def noteImages (old : State) (ns : List Nat) (s : State) : State :=
  forEach ns (fun n t => if image old n = image t n then t else putUrgent n t) s

/-- Make a change and put urgent entries for the nodes whose image it changed. -/
def carrying (ns : List Nat) (f : State → State) (s : State) : State := noteImages s ns (f s)

/-- An owner or a point command writes the base state of an output (R181, R182). -/
def writeBase (pt : Nat) (v : Bool) (s : State) : State := carrying [pt / 16] (putBase pt v) s

/-- The running test, if one runs. -/
def runningTest (s : State) : Option LoopTest := s.loopTest.filter fun t => t.cause.isNone

/-- A TEST exchange in flight at the end of its test is not judged (R179). -/
def Loop.unjudge (l : Loop) : Loop := { l with exchange := l.exchange.map fun e => { e with judged := false } }

/-- The test ends with a cause (R179): its state is kept for reading, its node gets an urgent entry, and the Console
Port is told. -/
def endTest (cause : TestCause) (s : State) : State :=
  match runningTest s with
  | none => s
  | some t =>
    let s := { s with loopTest := some { t with cause := some cause }, loop := s.loop.unjudge }
    let s := putUrgent t.node s
    offer [.console] .nodeTestEnded
      [.u8 t.node, .u8 cause.ctorIdx, Val.opt8 (t.result.map BitVec.toNat), .u16 t.windows] s

/-- A group has changed state: a test that watches it ends (R179). -/
def testSeesGroup (g : Nat) (s : State) : State :=
  match runningTest s with
  | some t => if t.watched.contains g then endTest .groupChange s else s
  | none => s

/-- The test on a node ends with a cause (node lost, door leaving SECURE; R179). -/
def endTestOn (n : Nat) (cause : TestCause) (s : State) : State := if testing s n then endTest cause s else s

end Sys2Proof.Machine
end

