-- ==== Sys2Proof/Machine/Release.lean ====
section
/-! DEFINITION. The Release Controller's part that reaches no door and no alarm (06): a group's state and its warning
outputs, the countdown's recompute, holds, the seal wait and the release lines, and the occupancy-unknown flag that
feeds the delay (R14). Passages that begin or end egress-only are in Groups.lean. -/

namespace Sys2Proof.Machine

/-- The causes a "state changed" notice names, in R132's order. -/
inductive Cause where
  | detection | confirmFire | manualPress | hold | tick | seal | timer | request | unstated (k : Nat)
  deriving DecidableEq, Repr

/-- The cause on the wire: its place in R132's list; where the list names none, the free value (log 20). -/
def Cause.val : Cause → Val
  | .detection => .u8 0
  | .confirmFire => .u8 1
  | .manualPress => .u8 2
  | .hold => .u8 3
  | .tick => .u8 4
  | .seal => .u8 5
  | .timer => .u8 6
  | .request => .u8 7
  | .unstated k => .u8 (Config.unstatedCause k)

/-- A group notice (R132): the group, the time, the state, remaining and elapsed where present, and its own values. -/
def groupNotice (g : Nat) (t : NoticeType) (values : List Val) (s : State) : State :=
  let v := s.group g
  offer groupPorts t
    ([.u8 g, .u16 s.clock.timeOfWeek, .u8 v.state.ctorIdx, Val.opt16 v.remaining, Val.opt16 v.elapsed] ++ values) s

def onGroup (g : Nat) (f : GroupVol → GroupVol) (s : State) : State := putGroup g (f (s.group g)) s

/-- What a warning output is on in (R131). -/
def warningWanted (st : GroupState) : WarnKind → Bool
  | .sounder => st.egressOnly
  | .sign => decide (st = .releasing) || decide (st = .discharged)

/-- The group writes the desired state of its warning outputs (R131) in the order of its record; of an output named twice
the last write stands (log 86), and the urgent entries come in that order (log 106). -/
def writeWarnings (g : Nat) (s : State) : State :=
  forEach (s.config.group g).warnings (fun w t => writeBase w.1 (warningWanted (t.group g).state w.2) t) s

/-- The group's new state, with its notice (R132). -/
def nameState (g : Nat) (st : GroupState) (cause : Cause) (s : State) : State :=
  groupNotice g .groupStateChanged [cause.val] (onGroup g (fun v => { v with state := st }) s)

/-- A passage that neither begins nor ends egress-only: the loop test and the warning outputs follow (R130). -/
def moveInner (g : Nat) (st : GroupState) (cause : Cause) (s : State) : State :=
  writeWarnings g (testSeesGroup g (nameState g st cause s))

/-- A recompute of the running countdown of a group (R116). At a return from SEAL-WAIT the notice "countdown revised" comes
before "state changed" (log 85). -/
def recompute (g : Nat) (s : State) : State :=
  let v := s.group g
  if v.state.counting then
    let rem := v.remaining.getD 0
    let el := v.elapsed.getD 0
    let d := if v.manual then delayM s g else delayD s g
    let new := min (s.config.group g).dmax (max rem (d - el))
    let s := onGroup g (fun v => { v with remaining := some new }) s
    let s := onlyIf (!(new == rem)) (groupNotice g .groupRevised [.u16 rem, .u16 new]) s
    if v.state = .sealWait ∧ 0 < new then
      let s := onGroup g (fun v => { v with sealTimer := none }) s
      moveInner g (if holdInForce s g && !v.manual then .held else .countdown) (.unstated 1) s
    else s
  else s

/-- A recompute for the group of a zone, if it has one. -/
def recomputeZone (z : Nat) (s : State) : State :=
  match zoneGroup s z with
  | some g => recompute g s
  | none => s

/-- The occupancy-unknown flag of a tracked zone is set (R14): a clear flag gives the notice, and then a recompute
(log 93). -/
def setOccUnknown (z : Nat) (s : State) : State :=
  if tracked s z && !(s.zone z).occUnknown then
    let s := putZone z { s.zone z with occUnknown := true } s
    let s := offer groupPorts .groupOccUnknownSet [.u8 z] s
    recomputeZone z s
  else s

/-- The flag is cleared, with the notice where it was set (R15); the notice names the zone as R14's does (log 56). -/
def clearOccUnknown (z : Nat) (s : State) : State :=
  if (s.zone z).occUnknown then
    let s := putZone z { s.zone z with occUnknown := false } s
    offer groupPorts .groupOccUnknownCleared [.u8 z] s
  else s

/-- Judge again whether a hold is in force (R117), `before` being the judgement before the event and `source` the point
of the abort circuit concerned, 0 for the panel; and act on it (R118, R122). The notice of the hold comes before
"state changed" (log 84). -/
def judgeHold (g : Nat) (before : Bool) (source : Nat) (s : State) : State :=
  let now := holdInForce s g
  let s := onlyIf (now && !before) (groupNotice g .groupHoldOn [.u16 source]) s
  let s := onlyIf (before && !now) (groupNotice g .groupHoldOff [.u16 source]) s
  let v := s.group g
  if v.manual then s
  else match v.state with
    | .countdown => onlyIf now (moveInner g .held .hold) s
    | .held =>
      if now then s
      else
        let floor := (s.config.group g).rmin
        moveInner g .countdown .hold (onGroup g (fun v => { v with remaining := some (max (v.remaining.getD 0) floor) }) s)
    | _ => s

/-- The entry to RELEASING (R124): both lines of the pair are driven and the pulse timer runs from P. The notice
"releasing" comes after "state changed" (log 88). -/
def enterReleasing (g : Nat) (cause : Cause) (s : State) : State :=
  let r := s.config.group g
  let s := onGroup g (fun v => { v with sealTimer := none, pulse := some r.p }) s
  let s := moveInner g .releasing cause (putLine r.pair true s)
  groupNotice g .groupReleasing [.u8 r.pair] s

/-- The seal timer expires in SEAL-WAIT (R123): the release goes ahead with the notice that names the doors, offered
before the change of state (log 83). -/
def sealExpire (g : Nat) (s : State) : State :=
  if (s.group g).state = .sealWait then
    let doors := notClosed s g
    enterReleasing g .timer (groupNotice g .groupUnsealed (counted (doors.map fun d => [.u8 d])) s)
  else s

/-- A group in SEAL-WAIT whose doors are all known closed goes to RELEASING (R123). -/
def sealCheck (g : Nat) (s : State) : State :=
  if (s.group g).state = .sealWait ∧ notClosed s g = [] then enterReleasing g .seal s else s

/-- The Door Controller tells the groups of a door of its known-closed value (R56), in rising order
(log 87). -/
def tellGroups (d : Nat) (s : State) : State :=
  forEach allGroups (fun g t => if (groupDoors t g).contains d then sealCheck g t else t) s

/-- Remaining has reached 0 in COUNTDOWN (R115, R123): on to RELEASING, or to the seal wait, which with S = 0 ends as
it begins. -/
def countdownOver (g : Nat) (s : State) : State :=
  if notClosed s g = [] then enterReleasing g .tick s
  else
    let len := (s.config.group g).s
    let s := onGroup g (fun v => { v with sealTimer := some len }) s
    let s := moveInner g .sealWait .tick s
    onlyIf (len == 0) (sealExpire g) s

/-- One tick of a group in COUNTDOWN (R115). -/
def countTick (g : Nat) (s : State) : State :=
  let rem := (s.group g).remaining.getD 0 - 1
  let s := onGroup g (fun v =>
    { v with remaining := some rem, elapsed := some (bump Config.count16 (v.elapsed.getD 0)) }) s
  onlyIf (rem == 0) (countdownOver g) s

end Sys2Proof.Machine
end

