-- ==== Sys2Proof/Machine/Alarms.lean ====
section
/-! DEFINITION. The Alarm Queue (07): arrivals, merging, displacement, the end of a cause, acknowledgement, clearing,
escalation and the general alarm line, with the order in which a change of the queue is handed on (R137). -/

namespace Sys2Proof.Machine

/-- The priority number of a kind (R134): the kinds stand in priority order, 0 being the highest. -/
def AlarmKind.priority (k : AlarmKind) : Nat := k.ctorIdx

/-- The kinds that latch (R134). -/
def AlarmKind.latching : AlarmKind → Bool
  | .occupantsAtDischarge | .duress | .pendant => true
  | _ => false

/-- The kinds whose cause ends as part of the arrival (R137). -/
def AlarmKind.momentary : AlarmKind → Bool
  | .occupantsAtDischarge | .duress => true
  | _ => false

/-- An alarm handed to the queue (R137). `stands` is the zone of the person's slot, for a located pendant (R140). -/
structure Arrival where
  key : AlarmKey
  grant : Option Nat
  unlocated : Bool
  stands : Option Nat
  deriving DecidableEq, Repr

/-- An arrival with a key alone. -/
def Arrival.plain (k : AlarmKey) : Arrival := ⟨k, none, false, none⟩

/-- The keys of the kinds that are raised by other blocks. -/
def AlarmKey.atDischarge (z : Nat) : AlarmKey := ⟨.occupantsAtDischarge, z, none, none, none⟩
def AlarmKey.duressOf (z c : Nat) : AlarmKey := ⟨.duress, z, some c, none, none⟩
def AlarmKey.call (z : Nat) : AlarmKey := ⟨.callStation, z, none, none, none⟩
def AlarmKey.missed (z c : Nat) : AlarmKey := ⟨.missedCheckIn, z, some c, none, none⟩
def AlarmKey.forcedDoor (z d : Nat) : AlarmKey := ⟨.forcedDoor, z, none, none, some d⟩
def AlarmKey.overstayOf (z c : Nat) : AlarmKey := ⟨.overstay, z, some c, none, none⟩
def AlarmKey.heldDoor (z d : Nat) : AlarmKey := ⟨.heldDoor, z, none, none, some d⟩

/-- A notice waiting for its change to be whole: its ports, its type and its values. -/
abbrev AlarmNotice := List Port × NoticeType × List Val

/-- The kind and key of an arrival, as a notice carries them. -/
def AlarmKey.vals (k : AlarmKey) : List Val :=
  [.u8 k.kind.ctorIdx, .u8 k.zone, Val.opt24 k.person, Val.opt16 k.pendant, Val.opt8 k.door]

/-- The unlocated field of a record: PENDANT only, and absent from every other kind (R135, R200). -/
def AlarmRec.unlocatedVal (r : AlarmRec) : Val :=
  if r.key.kind = .pendant then Val.named r.unlocated else .u8 0

/-- A record as an alarm notice shows it (R150): number, kind, priority, zone, the optional fields, state, level, repeat
count, the unlocated flag, and the time of week. -/
def AlarmRec.noticeVals (s : State) (r : AlarmRec) : List Val :=
  [.u8 r.number, .u8 r.key.kind.ctorIdx, .u8 r.key.kind.priority, .u8 r.key.zone, Val.opt24 r.key.person,
   Val.opt16 r.key.pendant, Val.opt8 r.key.door, Val.opt8 r.grant, .u8 (if r.acked then 1 else 0), .u8 r.level, .u8 r.repeats,
   r.unlocatedVal, .u16 s.clock.timeOfWeek]

/-- The ports of a notice about a record: the Console Port, or all three where `wide`; never wide for DURESS (R138,
R150). -/
def AlarmRec.ports (r : AlarmRec) (wide : Bool) : List Port :=
  if wide && !decide (r.key.kind = .duress) then allPorts else [.console]

/-- A notice about a record as it stands. -/
def AlarmRec.notice (s : State) (wide : Bool) (t : NoticeType) (more : List Val) (r : AlarmRec) : AlarmNotice :=
  (r.ports wide, t, r.noticeVals s ++ more)

/-- The reasons of a removal (R145), in the rule's order. -/
inductive Removal where
  | acknowledged | cleared | displaced
  deriving DecidableEq, Repr

/-- The notice of a removal, to all three ports where the record's level was 2 or 3 (R150); the reason stands last (log
117). -/
def AlarmRec.removed (s : State) (why : Removal) (r : AlarmRec) : AlarmNotice :=
  r.notice s (2 ≤ r.level) .alarmRemoved [.u8 why.ctorIdx]

/-- The record with this number. -/
def alarmNumbered (s : State) (n : Nat) : Option AlarmRec := s.alarms.records.find? fun r => r.number == n

/-- The record with this key. -/
def alarmKeyed (s : State) (k : AlarmKey) : Option AlarmRec := s.alarms.records.find? fun r => decide (r.key = k)

def putRecords (rs : List AlarmRec) (s : State) : State := { s with alarms := { s.alarms with records := rs } }

/-- A record takes its place again with new fields; nothing of a record's change moves it (R136). -/
def putAlarm (r : AlarmRec) (s : State) : State :=
  putRecords (s.alarms.records.map fun x => if x.number = r.number then r else x) s

/-- A record leaves the list (R145). -/
def dropAlarm (r : AlarmRec) (s : State) : State :=
  putRecords (s.alarms.records.filter fun x => !(x.number == r.number)) s

/-- A new record is inserted after the last whose priority number is at or below its own (R136). -/
def insertAlarm (r : AlarmRec) : List AlarmRec → List AlarmRec
  | [] => [r]
  | x :: t => if r.key.kind.priority < x.key.kind.priority then r :: x :: t else x :: insertAlarm r t

/-- The first number, counting upward from `n` and from 255 to 1, that is not in use (R136). -/
def freeNumber (used : List Nat) : Nat → Nat → Nat
  | 0, n => n
  | k + 1, n => if used.contains n then freeNumber used k (n % 255 + 1) else n

/-- The general alarm line's condition (R148). -/
def lineWanted (s : State) : Bool := s.alarms.records.any fun r => !r.acked && r.level == 3

/-- A change of the queue is handed on (R137): the zones whose unlocated records changed, then the general alarm line,
then the notices, the line's own last. -/
def handOnAlarms (zones : List Nat) (notices : List AlarmNotice) (s : State) : State :=
  let s := forEach zones recomputeZone s
  let want := lineWanted s
  let was := s.alarms.line
  let s := { s with alarms := { s.alarms with line := want } }
  let s := forEach notices (fun n => offer n.1 n.2.1 n.2.2) s
  onlyIf (want && !was) (offer allPorts .generalAlarmOn [.u16 s.clock.timeOfWeek])
    (onlyIf (was && !want) (offer allPorts .generalAlarmOff [.u16 s.clock.timeOfWeek]) s)

/-- The zone of a record that counts as an effective occupant. -/
def AlarmRec.weight (r : AlarmRec) : List Nat := if r.unlocated then [r.key.zone] else []

/-- What a merge makes of a record (R137). -/
def AlarmRec.merged (e : Nat) (a : Arrival) (r : AlarmRec) : AlarmRec :=
  let again := r.acked && r.key.kind.latching
  { r with
    repeats := bump 255 r.repeats
    active := !r.key.kind.momentary
    grant := if r.key.kind = .overstay then a.grant else r.grant
    acked := r.acked && !again
    level := if again then 0 else r.level
    escalation := if again then some e else r.escalation
    silence := if r.key.kind = .pendant then some Config.pendantSilence else none }

/-- A merge (R137). -/
def mergeAlarm (a : Arrival) (r : AlarmRec) (s : State) : State :=
  let r := r.merged (escalationPeriod s) a
  handOnAlarms [] [r.notice s (2 ≤ r.level) .alarmRepeated []] (putAlarm r s)

/-- The record an arrival raises (R137). -/
def Arrival.record (a : Arrival) (number : Nat) (s : State) : AlarmRec :=
  { number, key := a.key, grant := a.grant, raised := s.clock.timeOfWeek, repeats := 1, acked := false,
    active := !a.key.kind.momentary, unlocated := a.unlocated, level := 0, escalation := some (escalationPeriod s),
    silence := if a.key.kind = .pendant then some Config.pendantSilence else none }

/-- A new record is raised (R137), handed on together with what the same change displaced. A cause that ends within its
own arrival gives no notice "cause ended" (log 70). The zone of the slot of a located record stands last in "raised", and
is 0 for every other record (log 116). -/
def raiseAlarm (a : Arrival) (zones : List Nat) (before : List AlarmNotice) (s : State) : State :=
  let number := freeNumber (s.alarms.records.map (·.number)) Config.alarmMax s.alarms.next
  let r := a.record number s
  let s := { s with alarms := { s.alarms with
    records := insertAlarm r s.alarms.records, next := number % 255 + 1 } }
  handOnAlarms (zones ++ r.weight) (before ++ [r.notice s false .alarmRaised [Val.opt8 a.stands]]) s

/-- The record R149 may displace: of the ACKNOWLEDGED records of lowest priority, the one raised earliest. -/
def displaceable (rs : List AlarmRec) : Option AlarmRec :=
  match (rs.filter (·.acked)).getLast? with
  | none => none
  | some l => rs.find? fun r => r.acked && decide (r.key.kind = l.key.kind)

/-- The arrival is not queued (R149); its notice comes before what the setting of the flag brings (log 93). -/
def overflowAlarm (a : Arrival) (s : State) : State :=
  let s := { s with alarms := { s.alarms with overflow := bump 255 s.alarms.overflow } }
  let s := offer [.console] .alarmOverflow a.key.vals s
  onlyIf a.unlocated (setOccUnknown a.key.zone) s

/-- An arrival that needs a new record with the queue full (R149). The notice "displaced" names the removed record as the
other notices of a record do, and then the arrival by its kind and key (logs 14 and 103). -/
def arriveFull (a : Arrival) (s : State) : State :=
  match displaceable s.alarms.records with
  | none => overflowAlarm a s
  | some v =>
    if v.key.kind.priority < a.key.kind.priority then overflowAlarm a s
    else
      raiseAlarm a v.weight
        [v.removed s .displaced, ([.console], .alarmDisplaced, v.noticeVals s ++ a.key.vals)] (dropAlarm v s)

/-- An arrival (R137). -/
def arrive (a : Arrival) (s : State) : State :=
  match alarmKeyed s a.key with
  | some r => mergeAlarm a r s
  | none => if s.alarms.records.length < Config.alarmMax then raiseAlarm a [] [] s else arriveFull a s

/-- The cause of a record ends (R141, R143, R145): an ACKNOWLEDGED record of a non-latching kind is removed, the notice
"cause ended" coming before "removed" (log 102). -/
def endRecordCause (r : AlarmRec) (s : State) : State :=
  let r := { r with active := false, silence := none }
  let told := r.notice s false .alarmCauseEnded []
  if r.acked && !r.key.kind.latching then handOnAlarms r.weight [told, r.removed s .acknowledged] (dropAlarm r s)
  else handOnAlarms [] [told] (putAlarm r s)

/-- The cause with this key ends; where no record has the key, or its cause has ended before, nothing happens (R143). -/
def endCause (k : AlarmKey) (s : State) : State :=
  match alarmKeyed s k with
  | some r => if r.active then endRecordCause r s else s
  | none => s

/-- Acknowledge Alarm on a queued record (R144). -/
def acknowledge (r : AlarmRec) (s : State) : State :=
  if r.acked then s
  else
    let r := { r with acked := true, escalation := none }
    let told := r.notice s (2 ≤ r.level) .alarmAcknowledged []
    if r.active || r.key.kind.latching then handOnAlarms [] [told] (putAlarm r s)
    else handOnAlarms r.weight [told, r.removed s .acknowledged] (dropAlarm r s)

/-- Clear Alarm removes a record (R146). -/
def clearRecord (r : AlarmRec) (s : State) : State :=
  handOnAlarms r.weight [r.removed s .cleared] (dropAlarm r s)

/-- A RAISED record's escalation timer expires (R147). -/
def escalate (r : AlarmRec) (s : State) : State :=
  let level := r.level + 1
  let r := { r with level, escalation := if level < 3 then some (escalationPeriod s) else none }
  handOnAlarms [] [r.notice s (2 ≤ level) .alarmEscalated []] (putAlarm r s)

/-- The PENDANT record that is being heard for this pendant in this zone (R139). -/
def heardRecord (s : State) (c : PendantCall) : Option AlarmRec :=
  s.alarms.records.find? fun r =>
    decide (r.key.kind = .pendant) && r.active && r.key.zone == c.zone && r.key.pendant == some c.pendant

/-! ### Commands -/

/-- ACKNOWLEDGE_ALARM (R144). -/
def execAcknowledgeAlarm (h : Head) (number : Nat) (s : State) : Out :=
  request h Code.acknowledgeAlarm (fun s =>
    if number = 0 then done h Code.acknowledgeAlarm .badParam [] s
    else match alarmNumbered s number with
      | none => done h Code.acknowledgeAlarm .notFound [] s
      | some r => done h Code.acknowledgeAlarm .done [] (acknowledge r s)) s

/-- CLEAR_ALARM (R146). -/
def execClearAlarm (h : Head) (number : Nat) (s : State) : Out :=
  request h Code.clearAlarm (fun s =>
    if number = 0 then done h Code.clearAlarm .badParam [] s
    else match alarmNumbered s number with
      | none => done h Code.clearAlarm .notFound [] s
      | some r =>
        if !r.key.kind.latching || !r.acked || r.active then done h Code.clearAlarm .badState [] s
        else done h Code.clearAlarm .done [] (clearRecord r s)) s

/-- ESCALATION_TIMER_EXPIRY (R147): of a record that is RAISED below level 3. -/
def execEscalationTimerExpiry (number : Nat) (s : State) : Out :=
  served (fun s =>
    match alarmNumbered s number with
    | some r => if !r.acked && decide (r.level < 3) then escalate r s else s
    | none => s) s

/-- SILENCE_TIMER_EXPIRY (R141): of a PENDANT record whose cause is active and whose silence timer has run out. A hearing
taken before the expiry has started the timer again, and the cause stays active. -/
def execSilenceTimerExpiry (number : Nat) (s : State) : Out :=
  served (fun s =>
    match alarmNumbered s number with
    | some r =>
      if decide (r.key.kind = .pendant) && r.active && decide (r.silence = some 0) then endRecordCause r s else s
    | none => s) s

end Sys2Proof.Machine
end

