-- ==== Sys2Proof/Machine/AfterHours.lean ====
section
/-! DEFINITION. The After-Hours Unit (05): the audit log, grants and places, admission, check-in supervision, the
settlement of each moved slot (R91, R93, R96), and the zones' evaluation with its transitions (R6, R11, R12). -/

namespace Sys2Proof.Machine

/-! ### The audit log -/

/-- An audit record on the wire: minute, kind, zone and the optional fields (R101). -/
def AuditRec.vals (r : AuditRec) : List Val :=
  [.u16 r.minute, .u8 r.kind.ctorIdx, .u8 r.zone, Val.opt24 r.credential, Val.opt8 r.door, Val.opt8 r.grant,
   Val.opt8 (r.reason.map (·.ctorIdx))]

/-- The log takes a record, discarding its oldest when it is full (R102). -/
def AfterHours.append (r : AuditRec) (u : AfterHours) : AfterHours :=
  if u.audit.length < Config.auditMax then { u with audit := u.audit ++ [r] }
  else { u with audit := u.audit.tail ++ [r], wrapped := true }

/-- The notice of an audit record (R104); that of PASSBACK-SOFT is the door notice "passback" (R20). -/
def auditNotice (r : AuditRec) (s : State) : State :=
  if r.kind = .passbackSoft then
    offer allPorts .doorPassback [Val.opt24 r.credential, Val.opt8 r.door, .u8 r.zone] s
  else offer allPorts .hoursAudit r.vals s

/-- An audit record is written at the current time of week, with its notice. -/
def audit (kind : AuditKind) (zone : Nat) (credential door grant : Option Nat) (reason : Option Refuse) (s : State) :
    State :=
  let r : AuditRec := ⟨s.clock.timeOfWeek, kind, zone, credential, door, grant, reason⟩
  auditNotice r { s with afterHours := s.afterHours.append r }

/-! ### Grants -/

/-- The grant numbers, 1..16. -/
def allGrants : List Nat := (List.range Config.grantMax).map (· + 1)

/-- A grant changes state, with its notice (R104), which comes before the record of the change (log 91); a grant that
becomes FREE is shown with the zone, escort and expiry it had (log 34). -/
def grantState (g : Nat) (st : GrantState) (s : State) : State :=
  let v := s.grant g
  let s := putGrant g (if st = .free then Grant.free else { v with state := st }) s
  offer allPorts .hoursGrantState
    [.u8 g, .u8 v.zone, .u24 v.escort, .u8 st.ctorIdx, .u8 v.count, .u16 v.expiry] s

/-- A grant ends with nobody left (R92, R93, R95): FREE, and a GRANT-ENDED record. -/
def freeGrant (g : Nat) (s : State) : State :=
  let z := (s.grant g).zone
  audit .grantEnded z none none (some g) none (grantState g .free s)

/-- A slot counts for a grant (R91). -/
def countsFor (s : State) (g i : Nat) : Bool :=
  (s.slot i).grant == some g && (s.slot i).zone == some (s.grant g).zone

/-- A person overstays a grant (R92, R93): the arrival and the record. -/
def overstayed (g c : Nat) (s : State) : State :=
  let z := (s.grant g).zone
  let s := arrive ⟨.overstayOf z c, some g, false, none⟩ s
  audit .overstay z (some c) none (some g) none s

/-- A LIVE grant expires, is revoked or ends at a discharge (R92, R94, R95). -/
def expireGrant (g : Nat) (s : State) : State :=
  if (s.grant g).count = 0 then freeGrant g s
  else
    let s := grantState g .overstay s
    forEach (allSlots.filter (countsFor s g)) (fun i t => overstayed g (t.slot i).credential t) s

/-- The LIVE grants of a discharged group's zones end (R95). -/
def endGrants (group : Nat) (s : State) : State :=
  forEach (allGrants.filter fun g =>
    decide ((s.grant g).state = .live) && zoneGroup s (s.grant g).zone == some group) expireGrant s

/-- A place of a grant is given up (R88, R91); a grant in OVERSTAY without entrants becomes FREE (R93). -/
def giveUpPlace (g : Nat) (s : State) : State :=
  let v := { s.grant g with count := (s.grant g).count - 1 }
  let s := putGrant g v s
  onlyIf (decide (v.state = .overstay) && v.count == 0) (freeGrant g) s

/-! ### Admission (R86, R87) -/

/-- The answer to the admission question. -/
inductive Admission where
  | refused | standing | under (g : Nat)
  deriving DecidableEq, Repr

/-- The escort is present in the zone (R86). -/
def escortPresent (s : State) (z escort : Nat) : Bool :=
  match holder s escort with
  | some i => (s.slot i).zone == some z
  | none => false

/-- The first LIVE grant on the zone, in number order, with a place free beside the places `given` in the same pair,
that meets a condition on its escort. -/
def grantFor (s : State) (z : Nat) (given : Option Nat) (escort : Nat → Bool) : Option Nat :=
  allGrants.find? fun g =>
    let v := s.grant g
    decide (v.state = .live) && v.zone == z && (v.count + (if given = some g then 1 else 0) < v.maximum) &&
      escort v.escort

/-- The steps of R86; `here` says which escorts count as present, and `given` is the grant of the place already given
to the other member of a pair. -/
def admission (s : State) (z c : Nat) (right : Right) (given : Option Nat) (here : Nat → Bool) : Admission :=
  match right with
  | .none => .refused
  | _ =>
    match grantFor s z given (· == c) with
    | some g => .under g
    | none =>
      match right with
      | .standing => .standing
      | _ =>
        match grantFor s z given here with
        | some g => .under g
        | none => .refused

/-- The question as R86 asks it of one entrant. -/
def admitOne (s : State) (z c : Nat) (right : Right) : Admission := admission s z c right none (escortPresent s z)

/-- The pair-first form (R87): whether a grant could take the entrants once the pair is complete. -/
def admitFirst (s : State) (z c : Nat) (right : Right) : Bool :=
  !decide (admission s z c right none (fun _ => true) = .refused)

/-- The grant of an answer, if it names one. -/
def Admission.grant : Admission → Option Nat
  | .under g => some g
  | _ => none

/-- The pair form (R87): the answers for the first and the second entrant, when both are admitted. -/
def admitPair (s : State) (z c1 : Nat) (r1 : Right) (c2 : Nat) (r2 : Right) : Option (Admission × Admission) :=
  let a := admission s z c1 r1 none fun e => escortPresent s z e || e == c2
  let b := admission s z c2 r2 a.grant fun e => escortPresent s z e || e == c1
  if a = .refused ∨ b = .refused then none else some (a, b)

/-! ### Places of reserved passages (R88) -/

/-- The slot of a reserved passage takes its place (R88): `adm` is absent where the target is not after-hours. -/
def takePlace (i d : Nat) (adm : Option Admission) (s : State) : State :=
  let v := s.slot i
  let taken := adm.bind Admission.grant
  let s := match taken with
    | some g => putGrant g { s.grant g with count := (s.grant g).count + 1 } s
    | none => s
  let s := putSlot i { v with
    grant := if taken.isSome then taken else v.grant
    mark := v.mark || (adm.isSome && decide (v.state = .pendingEntry)) } s
  if adm.isSome || v.grant.isSome then putPlace i (some ⟨d, taken, v.grant, adm.isSome⟩) s else s

/-- At a cancel the place record of a slot is undone and dropped (R88). -/
def undoPlace (i : Nat) (s : State) : State :=
  match s.place i with
  | none => s
  | some p =>
    let v := s.slot i
    let s := if v.state = .free then s else putSlot i { v with grant := p.former } s
    let s := putPlace i none s
    match p.taken with
    | some g => giveUpPlace g s
    | none => s

/-! ### Check-in supervision -/

/-- The deadline that a zone's interval gives from now; absent where the interval is off (R96). -/
def newDeadline (s : State) (z : Nat) : Option Deadline :=
  if (s.config.zone z).interval = 0 then none else some (s.deadlineIn (s.config.zone z).interval)

/-- The supervision that a slot had, ended or begun afresh, ends the cause of its MISSED-CHECK-IN alarm (R100). -/
def endMissed (old : Slot) (s : State) : State :=
  if old.deadline.any fun d => decide (d.stage = .missed) then endCause (.missed (old.zone.getD 0) old.credential) s
  else s

/-- A slot is checked in (R98). -/
def checkIn (i : Nat) (s : State) : State :=
  let old := s.slot i
  endMissed old (putSlot i { old with deadline := newDeadline s (old.zone.getD 0) } s)

/-- A slot that a sign of life in the zone checks in (R98, R99). -/
def checksIn (s : State) (z i : Nat) : Bool :=
  (s.slot i).zone == some z && (s.slot i).mark && (s.slot i).deadline.isSome

/-- The check-in of a presentation at its arrival, at a reader that faces a zone (R98). -/
def checkInPresented (c facing : Nat) (s : State) : State :=
  match holder s c with
  | some i => if checksIn s facing i then checkIn i s else s
  | none => s

/-- A check-in button pressed in a zone (R99), in slot order (log 92). -/
def checkInButton (z : Nat) (s : State) : State := forEach (allSlots.filter (checksIn s z)) checkIn s

/-- The point of a deadline is reached: the time of week and the minute timer both equal it (R97). -/
def reached (s : State) (d : Deadline) : Bool :=
  d.minute == s.clock.timeOfWeek && d.phase == s.clock.minuteTimer

/-- The deadline of a slot is reached in stage DUE (R97): the grace period begins. After a check-in the new deadline
stands and nothing is reached (R98). -/
def beginGrace (i : Nat) (s : State) : State :=
  let v := s.slot i
  match v.deadline with
  | some d =>
    if d.stage = .due ∧ reached s d = true then
      let m := (d.minute + (s.config.zone (v.zone.getD 0)).grace) % Config.weekMinutes
      putSlot i { v with deadline := some ⟨m, d.phase, .grace⟩ } s
    else s
  | none => s

/-- The grace period of a slot ends (R97): the check-in is missed. -/
def missCheckIn (i : Nat) (s : State) : State :=
  let v := s.slot i
  match v.deadline with
  | some d =>
    if d.stage = .grace ∧ reached s d = true then
      let z := v.zone.getD 0
      let s := putSlot i { v with deadline := some { d with stage := .missed } } s
      let s := arrive (.plain (.missed z v.credential)) s
      offer allPorts .hoursMissed [.u8 i, .u24 v.credential, .u8 z] s
    else s
  | none => s

/-- A point moved by the ticks that the clock moves, modulo the week (R9). -/
def Deadline.shift (ticks : Nat) (d : Deadline) : Deadline :=
  let t := (d.minute * Config.minuteTicks + d.phase + ticks) % Config.weekTicks
  { d with minute := t / Config.minuteTicks, phase := t % Config.minuteTicks }

/-! ### Transitions (R6, R11, R12) -/

/-- A slot is carried over (R11): marked, given its deadline, and recorded. -/
def carryOver (z i : Nat) (s : State) : State :=
  let v := s.slot i
  let s := putSlot i { v with mark := true, deadline := newDeadline s z } s
  audit .carriedOver z (some v.credential) none v.grant none s

/-- A slot loses its mark and its deadline (R12). -/
def dropMark (i : Nat) (s : State) : State :=
  let v := s.slot i
  endMissed v (putSlot i { v with mark := false, deadline := none } s)

/-- The slots whose zone is the zone, in slot order. -/
def occupants (s : State) (z : Nat) : List Nat := allSlots.filter fun i => (s.slot i).zone == some z

/-- A zone's status changes (R11, R12): its occupants in slot order (log 92 for R12), then the notice with the
zone, its status and the time, which comes after the notices of their records and of their causes (log 97). -/
def transition (z : Nat) (into : Bool) (s : State) : State :=
  let s := putZone z { s.zone z with afterHours := into } s
  let s :=
    if into then forEach ((occupants s z).filter fun i => !(s.slot i).mark) (carryOver z) s
    else forEach (occupants s z) dropMark s
  offer allPorts .hoursTransition [.u8 z, Val.flag into, .u16 s.clock.timeOfWeek] s

/-- The evaluation of every zone (R6), in zone order (R11; log 92 for the zones that go into hours). -/
def evaluateZones (s : State) : State :=
  forEach allZones (fun z t =>
    let now := afterHoursNow t z
    if now = (t.zone z).afterHours then t else transition z now t) s

/-! ### The settlement of a moved slot -/

/-- The table of R96 for a slot that was `old` and is now in zone `z` (or freed, where `z` is absent): the mark and
deadline it takes, and the record. `door` is the passage's door at a commit. A CARRIED-OVER record names the grant number
as the change leaves it, not the grant left (log 113). -/
def settleMark (i : Nat) (old : Slot) (z door : Option Nat) (place : Option Place) (s : State) : State :=
  let admitted := place.any (·.afterHours)
  let taken := place.bind (·.taken)
  let credential := some old.credential
  match z with
  | none =>
    if old.mark then endMissed old (audit .exit (old.zone.getD 0) credential door old.grant none s) else s
  | some z =>
    let v := s.slot i
    if keptAfterHours s z then
      if admitted then
        let s := putSlot i { v with mark := true, deadline := newDeadline s z } s
        endMissed old (audit .entry z credential door taken none s)
      else if old.mark then endMissed old (putSlot i { v with deadline := newDeadline s z } s)
      else
        let s := putSlot i { v with mark := true, deadline := newDeadline s z } s
        audit .carriedOver z credential none v.grant none s
    else if admitted then
      let s := putSlot i { v with mark := false, deadline := none } s
      endMissed old (audit .entry z credential door taken none s)
    else if old.mark then
      let s := putSlot i { v with mark := false, deadline := none } s
      endMissed old (audit .exit (old.zone.getD 0) credential door old.grant none s)
    else s

/-- The grant that a moved slot stops counting for (R91): at a commit the former grant of its place record, if it has
one, and otherwise the slot's grant number; it must cover the zone left. -/
def grantLeft (s : State) (old : Slot) (place : Option Place) : Option Nat :=
  let g := match place with
    | some p => p.former
    | none => old.grant
  g.filter fun g => old.zone == some (s.grant g).zone

/-- A slot stops counting for a grant (R91, R93). -/
def leaveGrant (g : Nat) (old : Slot) (s : State) : State :=
  let s := onlyIf (decide ((s.grant g).state = .overstay)) (endCause (.overstayOf (s.grant g).zone old.credential)) s
  giveUpPlace g s

/-- A slot that has committed under a grant begins to count for it; for a grant in OVERSTAY that is an overstay (R93). -/
def joinGrant (g c : Nat) (s : State) : State :=
  onlyIf (decide ((s.grant g).state = .overstay)) (overstayed g c) s

/-- The grant number that a slot has after its change: the one its passage took (R91); a correction without a place
record keeps a number under which the slot did not count (R29). -/
def grantAfter (s : State) (old : Slot) (place : Option Place) (door : Option Nat) : Option Nat :=
  match door, place, grantLeft s old place with
  | none, none, none => old.grant
  | _, _, _ => place.bind (·.taken)

/-- The unit is told of one slot that was `old` before the Roster's change (R27): R96, then R91 and R93. Its place
record is used and dropped. The grant left comes before the grant joined (log 91), and the notice of its audit record
before those of the alarm causes that end (log 68). The grant number is settled before the record of R96 is written, which a
CARRIED-OVER record shows (log 113), and that record comes before the OVERSTAY arrival and record of R93 (log 114). -/
def settle (i : Nat) (old : Slot) (door : Option Nat) (s : State) : State :=
  let place := s.place i
  let taken := place.bind (·.taken)
  let new := s.slot i
  let s := if new.state = .free then s else putSlot i { new with grant := grantAfter s old place door } s
  let s := settleMark i old new.zone door place s
  let s := match grantLeft s old place with
    | some g => leaveGrant g old s
    | none => s
  let s := match taken with
    | some g => joinGrant g old.credential s
    | none => s
  putPlace i none s

/-! ### Commands -/

/-- GRANT_ESCORT (R90). -/
def execGrantEscort (h : Head) (zone escort duration entrants : Nat) (s : State) : Out :=
  request h Code.grantEscort (fun s =>
    let finish := fun (r : Result) (vs : List Val) (s : State) => done h Code.grantEscort r vs s
    if zone = 0 || zone > 15 || !tracked s zone || !numberValid escort then finish .badParam [] s
    else if !s.clock.timeKnown then finish .badState [] s
    else if allGrants.any fun g =>
        decide ((s.grant g).state = .live) && (s.grant g).escort == escort && (s.grant g).zone == zone then
      finish .badState [] s
    else
      match allGrants.find? fun g => decide ((s.grant g).state = .free) with
      | none => finish .full [] s
      | some g =>
        let d := clamped 15 720 duration
        let m := clamped 1 8 entrants
        let expiry := s.minuteAfter d.1
        let s := grantState g .live (putGrant g ⟨.free, zone, escort, expiry, m.1, 0⟩ s)
        let s := audit .grantOpened zone (some escort) none (some g) none s
        finish (if d.2 || m.2 then .doneClamped else .done) [.u8 g, .u16 expiry] s) s

/-- REVOKE_GRANT (R94). -/
def execRevokeGrant (h : Head) (grant : Nat) (s : State) : Out :=
  request h Code.revokeGrant (fun s =>
    if grant = 0 || grant > Config.grantMax then done h Code.revokeGrant .badParam [] s
    else match (s.grant grant).state with
      | .free => done h Code.revokeGrant .notFound [] s
      | .overstay => done h Code.revokeGrant .done [] s
      | .live => done h Code.revokeGrant .done [] (expireGrant grant s)) s

/-- CHECK_IN_DEADLINE_REACHED (R97). -/
def execCheckInDeadlineReached (slot : Nat) (s : State) : Out := served (beginGrace slot) s

/-- GRACE_END (R97). -/
def execGraceEnd (slot : Nat) (s : State) : Out := served (missCheckIn slot) s

/-- READ_AUDIT (R103): the records read leave the log and the wrapped mark is cleared. -/
def execReadAudit (h : Head) (s : State) : Out :=
  request h Code.readAudit (fun s =>
    let u := s.afterHours
    let rest := u.audit.drop 8
    let s := { s with afterHours := { u with audit := rest, wrapped := false } }
    done h Code.readAudit .done
      (counted ((u.audit.take 8).map AuditRec.vals) ++ [.u8 rest.length, Val.flag u.wrapped]) s) s

end Sys2Proof.Machine
end

