-- ==== Sys2Proof/Machine/Roster.lean ====
section
/-! DEFINITION. The Roster's passages and the console corrections (02): reserve, commit, cancel, and the hand-on of a
change of occupancy (R27). -/

namespace Sys2Proof.Machine

/-- The reservation of a door (2.4): the slots whose pending door it is, in slot order. -/
def reservation (s : State) (d : Nat) : List Nat := allSlots.filter fun i => (s.slot i).pendDoor == some d

/-- One entrant of an entry release is reserved (R22), with the duress mark a new slot takes (R19), and takes its place
under the admission answered at order 7 (R88). -/
def reserveEntrant (d t c : Nat) (duress : Bool) (adm : Option Admission) (s : State) : State :=
  match position s c with
  | .outside =>
    if tracked s t then
      match lowestFree s with
      | some i =>
        takePlace i d adm (putSlot i
          { Slot.free with state := .pendingEntry, credential := c, pendZone := some t, pendDoor := some d,
                           mark := false, duress := duress } s)
      | none => s
    else s
  | .inZone z =>
    if z = t then s
    else
      match holder s c with
      | some i =>
        takePlace i d adm (putSlot i
          { s.slot i with state := .presentMoving, pendZone := some (if tracked s t then t else 0),
                          pendDoor := some d } s)
      | none => s
  | .inPassage => s

/-- The reservation of an egress release (R23), made as far as the Roster can; `found` says that the lookup found an
enabled record. -/
def reserveEgress (d t c : Nat) (duress found : Bool) (s : State) : State :=
  match position s c with
  | .inZone z =>
    if z = t || (tracked s t && !decide (fit s t [c] = .fits)) then s
    else
      match holder s c with
      | some i =>
        takePlace i d none (putSlot i
          { s.slot i with state := .presentMoving, pendZone := some (if tracked s t then t else 0),
                          pendDoor := some d } s)
      | none => s
  | .outside =>
    if found && tracked s t && decide (fit s t [c] = .fits) then
      match lowestFree s with
      | some i => takePlace i d none (putSlot i
          { Slot.free with state := .pendingEntry, credential := c, pendZone := some t, pendDoor := some d,
                           duress := duress } s)
      | none => s
    else s
  | .inPassage => s

/-- What a cancel makes of a slot (R25). -/
def Slot.cancelled (v : Slot) : Slot :=
  match v.state with
  | .pendingEntry => Slot.free
  | .presentMoving => { v with state := .present, pendZone := none, pendDoor := none }
  | _ => v

/-- The reservation of a door is cancelled (R25): every slot returns to where it stood, and then the
places are given back in slot order (log 77). -/
def cancel (d : Nat) (s : State) : State :=
  let is := reservation s d
  let s := forEach is (fun i t => putSlot i (t.slot i).cancelled t) s
  forEach is undoPlace s

/-- What a commit makes of a slot at minute `m` (R24). -/
def Slot.committed (m : Nat) (v : Slot) : Slot :=
  match v.pendZone with
  | some 0 => Slot.free
  | some z => { v with state := .present, zone := some z, pendZone := none, pendDoor := none, entered := some m }
  | none => v

/-- A change of the Roster is handed on (R27): each changed slot to the After-Hours Unit in slot order, each whole before
the next (log 114), then one recompute for each group that has a changed zone, in group order (log 63). -/
def handOnRoster (old : State) (is : List Nat) (door : Option Nat) (s : State) : State :=
  let changed := fun z => !(occupancy old z == occupancy s z)
  let groups := allGroups.filter fun g => (groupZones s g).any changed
  let s := forEach is (fun i t => settle i (old.slot i) door t) s
  forEach groups recompute s

/-- The reservation of a door commits (R24, R26), and is handed on. -/
def commit (d : Nat) (s : State) : State :=
  let is := reservation s d
  let t := forEach is (fun i t => putSlot i ((t.slot i).committed t.clock.timeOfWeek) t) s
  if is.isEmpty then s else handOnRoster s is (some d) t

/-- The duress mark follows a decided presentation (R19). -/
def markDuress (c : Nat) (duress : Bool) (s : State) : State :=
  match holder s c with
  | some i => putSlot i { s.slot i with duress := duress } s
  | none => s

/-! ### Commands: the console corrections -/

/-- MOVE_ROSTER_ENTRY (R29). -/
def execMoveRosterEntry (h : Head) (slot zone : Nat) (s : State) : Out :=
  request h Code.moveRosterEntry (fun s =>
    let finish := fun (r : Result) (s : State) => done h Code.moveRosterEntry r [] s
    let v := s.slot slot
    if slot ≥ Config.rosterSlots || zone = 0 || zone > 15 || !tracked s zone then finish .badParam s
    else if v.state ≠ .present then finish .badState s
    else if v.zone = some zone then finish .done s
    else if committed s zone + 1 > (s.config.zone zone).capacity then finish .zoneFull s
    else
      let t := putSlot slot { v with zone := some zone, entered := some s.clock.timeOfWeek } s
      finish .done (handOnRoster s [slot] none t)) s

/-- REMOVE_ROSTER_ENTRY (R30). -/
def execRemoveRosterEntry (h : Head) (slot : Nat) (s : State) : Out :=
  request h Code.removeRosterEntry (fun s =>
    let finish := fun (r : Result) (s : State) => done h Code.removeRosterEntry r [] s
    if slot ≥ Config.rosterSlots then finish .badParam s
    else if (s.slot slot).state ≠ .present then finish .badState s
    else finish .done (handOnRoster s [slot] none (putSlot slot Slot.free s))) s

/-- CONFIRM_ZONE_CLEAR (R31): the PRESENT slots of the zone are freed and its occupancy-unknown flag is cleared as one
change, then the slots are handed on; the flag's notice comes before the audit records of the slots (log 54). -/
def execConfirmZoneClear (h : Head) (zone : Nat) (s : State) : Out :=
  request h Code.confirmZoneClear (fun s =>
    if zone = 0 || zone > 15 || !tracked s zone then done h Code.confirmZoneClear .badParam [] s
    else
      let is := allSlots.filter fun i => decide ((s.slot i).state = .present) && (s.slot i).zone == some zone
      let t := forEach is (fun i t => putSlot i Slot.free t) s
      let t := clearOccUnknown zone t
      done h Code.confirmZoneClear .done [] (handOnRoster s is none t)) s

end Sys2Proof.Machine
end

