-- ==== Sys2Proof/Machine/Store.lean ====
section
/-! DEFINITION. The Credential Store (04): the reads with their check, the six waiting classes and the grant, lookups,
port operations, the scrubber, and the pendant reports that ask for a lookup (R139). -/

namespace Sys2Proof.Machine

/-! ### The index and the slots -/

def onStore (f : Store → Store) (s : State) : State := { s with store := f s.store }

/-- The entry, of another slot than this one, that meets a condition (R68). -/
def Store.otherEntry (t : Store) (slot : Nat) (p : IndexEntry → Bool) : Bool :=
  t.index.any fun e => !(e.1 == slot) && p e.2

/-- A number or pendant of a record is held by another slot, IN-USE or DAMAGED (R68). -/
def Store.duplicate (t : Store) (slot : Nat) (c : Credential) : Bool :=
  t.otherEntry slot (fun e => e.number == some c.number) ||
    (!(c.pendant == 0) && t.otherEntry slot fun e => e.pendant == some c.pendant)

/-- The index entry of a record in use (R65). -/
def Credential.entry (c : Credential) : IndexEntry := ⟨.inUse, some c.number, some c.pendant, c.guarded⟩

/-- The numbers of slots that are IN-USE and DAMAGED: the census of the index (R85). -/
def Store.inUse (t : Store) : Nat := t.index.countP fun e => decide (e.2.cond = .inUse)
def Store.damagedCount (t : Store) : Nat := t.index.countP fun e => decide (e.2.cond = .damaged)

/-- A slot takes fresh contents, its marker cleared, and its index entry with them (R77, R78). -/
def Store.write (slot : Nat) (v : Contents) (t : Store) : Store :=
  let e := match v with
    | .record c => c.entry
    | _ => IndexEntry.empty
  (t.putCell slot ⟨false, v⟩).putEntry slot e

/-- A slot is marked damaged at a double error (R67): the marker, and the entry with the identity it held; an entry
without identity counts as protected (R65, R66). -/
def Store.damage (slot : Nat) (t : Store) : Store :=
  let e := t.entry slot
  (t.putCell slot { t.cell slot with marker := true }).putEntry slot
    { e with cond := .damaged, guarded := e.guarded || e.number.isNone }

/-- The store notice "record damaged" (R67). -/
def damagedNotice (slot : Nat) (s : State) : State :=
  offer [.console] .storeDamaged [.u16 slot, Val.opt24 (s.store.entry slot).number, .u16 s.clock.timeOfWeek] s

/-- What the read of a slot finds; contents left by an interrupted write check as a double error (R83). -/
def Store.found (t : Store) (slot : Nat) (check : ReadCheck) : ReadCheck :=
  if (t.cell slot).contents = .unreadable then .double else check

/-- The effects of reading a slot (R66, R67). -/
def readEffects (slot : Nat) (check : ReadCheck) (s : State) : State :=
  match s.store.found slot check with
  | .clean => s
  | .single => onStore (fun t => { t with corrected := bump Config.count16 t.corrected }) s
  | .double => damagedNotice slot (onStore (Store.damage slot) s)

/-- The record that a read of a slot returns: none after a double error. -/
def readRecord (slot : Nat) (check : ReadCheck) (s : State) : Option Contents :=
  if s.store.found slot check = .double then none else some (s.store.cell slot).contents

/-- The result of a lookup (R73, R74). -/
inductive Looked where
  | notFound | damaged | found (c : Credential)
  deriving DecidableEq, Repr

/-- A lookup by the condition on index entries: its result and its effects on the store (R73, R74). Where an
IN-USE and a DAMAGED entry both meet it, the lowest-numbered slot answers (log 60). -/
def lookUp (p : IndexEntry → Bool) (check : ReadCheck) (s : State) : Looked × State :=
  match s.store.index.find? fun e => p e.2 with
  | none => (.notFound, s)
  | some (slot, e) =>
    if e.cond = .damaged then (.damaged, s)
    else
      (match readRecord slot check s with
       | none => .damaged
       | some (.record c) => .found c
       | some _ => .notFound,
       readEffects slot check s)

def lookUpNumber (c : Nat) : ReadCheck → State → Looked × State := lookUp fun e => e.number == some c
def lookUpPendant (p : Nat) : ReadCheck → State → Looked × State :=
  lookUp fun e => !(p == 0) && e.pendant == some p

/-! ### Waiting and the grant (R69 to R72, R76) -/

/-- The place of a port's waiting operation (R70). -/
def Store.waiting (t : Store) : Port → Option PortOp
  | .access => t.waitAccess
  | .fire => t.waitFire
  | .console => t.waitConsole

def Store.setWaiting (t : Store) (p : Port) (o : Option PortOp) : Store :=
  match p with
  | .access => { t with waitAccess := o }
  | .fire => { t with waitFire := o }
  | .console => { t with waitConsole := o }

/-- A requester whose turn it is. -/
inductive Turn where
  | scrub | lookup (l : Lookup) | pendant (c : PendantCall) | port (p : Port) (op : PortOp)
  deriving DecidableEq, Repr

/-- The next turn: the scrubber's forced turn (R71), then the oldest entry of the lowest class (R70). -/
def Store.next (t : Store) : Option Turn :=
  if t.scrubber.waiting && t.scrubber.forced then some .scrub
  else
    match t.class1 with
    | l :: _ => some (.lookup l)
    | [] =>
      match t.class2 with
      | c :: _ => some (.pendant c)
      | [] =>
        match t.waitConsole, t.waitFire, t.waitAccess with
        | some op, _, _ => some (.port .console op)
        | none, some op, _ => some (.port .fire op)
        | none, none, some op => some (.port .access op)
        | none, none, none => if t.scrubber.waiting then some .scrub else none

/-- The slot that a Write, Erase or Modify names. -/
def PortOp.slot : PortOp → Nat
  | .read i => i
  | .write i _ => i
  | .erase i => i
  | .modify i _ => i

/-- The refusal that the checks 3 to 6 of R76 give at the grant, if any; check 6 of a Modify comes after its read. -/
def grantCheck (s : State) (p : Port) (op : PortOp) : Option Result :=
  let e := s.store.entry op.slot
  match op with
  | .read _ => none
  | _ =>
    if p = .access ∧ (op.slot < s.config.windowLow ∨ s.config.windowHigh < op.slot) then some .outOfWindow
    else if p = .access ∧ e.guarded then some .guarded
    else
      match op with
      | .modify _ _ =>
        if e.cond = .damaged then some .damaged else if e.cond = .empty then some .notFound else none
      | .write i c => if s.store.duplicate i c then some .badParam else none
      | _ => none

/-- The slots from `i` on, in the scrubber's order. -/
def scrubOrder (i : Nat) : List Nat := (List.range Config.storeSlots).map fun k => (i + k) % Config.storeSlots

/-- The scrubber is granted the store (R71, R82): it passes over DAMAGED slots, and with every slot DAMAGED its step
ends at the grant, its position staying where it stood (log 67). -/
def grantScrub (s : State) : State :=
  let t := s.store
  let scr := { t.scrubber with waiting := false, waited := 0, forced := false }
  match (scrubOrder scr.position).find? fun i => !decide ((t.entry i).cond = .damaged) with
  | some i => onStore (fun t => { t with op := some (.scrub i), scrubber := { scr with position := i } }) s
  | none => onStore (fun t => { t with scrubber := { scr with interval := some (scrubInterval s) } }) s

/-- The store is granted to a requester; a port operation that a check refuses ends at once (R76). -/
def grantTurn (turn : Turn) (s : State) : State :=
  match turn with
  | .scrub => grantScrub s
  | .lookup l => onStore (fun t => { t with op := some (.lookup l false), class1 := t.class1.tail }) s
  | .pendant c => onStore (fun t => { t with op := some (.pendant c), class2 := t.class2.tail }) s
  | .port p op =>
    let s := onStore (fun t => t.setWaiting p none) s
    match grantCheck s p op with
    | some r => endWork p r [] s
    | none => onStore (fun t => { t with op := some (.port p op) }) s

/-- While the store is IDLE the next waiting requester is granted it (R69, R70). A refusal at the grant, or an empty
scrub step, leaves it IDLE for the next: at most three ports and the scrubber. -/
def arbitrateFor : Nat → State → State
  | 0, s => s
  | n + 1, s =>
    match s.store.op, s.store.next with
    | none, some t => arbitrateFor n (grantTurn t s)
    | _, _ => s

def arbitrate (s : State) : State := arbitrateFor 5 s

/-- The operation that held the store has ended. -/
def releaseStore (s : State) : State := onStore (fun t => { t with op := none }) s

/-- The Door Controller asks for a lookup (R73). -/
def askLookup (l : Lookup) (s : State) : State :=
  arbitrate (onStore (fun t => { t with class1 := t.class1 ++ [l] }) s)

/-- A port's operation waits for the store in its class (R70, R189). -/
def askPort (h : Head) (code : Nat) (op : PortOp) (s : State) : State :=
  arbitrate (onStore (fun t => t.setWaiting h.port (some op)) (beginWork h code .store s))

/-- The counts that every Read Credential reply carries (R75). -/
def storeCounts (s : State) : List Val :=
  [.u16 s.store.inUse, .u16 s.store.damagedCount, .u16 s.store.corrected, .u16 s.store.scrubber.position]

/-! ### Pendant reports and their lookups (07) -/

/-- A pendant report (R139): a hearing, folded into a pending arrival, or a new pending arrival with its lookup. -/
def pendantReport (c : PendantCall) (s : State) : State :=
  match heardRecord s c with
  | some r => putAlarm { r with silence := some Config.pendantSilence } s
  | none =>
    if s.alarms.arrivals.contains c then s
    else
      let s := { s with alarms := { s.alarms with arrivals := s.alarms.arrivals ++ [c] } }
      arbitrate (onStore (fun t => { t with class2 := t.class2 ++ [c] }) s)

/-- The arrival of a pendant whose lookup has ended (R140). -/
def pendantArrival (s : State) (c : PendantCall) (r : Looked) : Arrival :=
  let at_ := match r with
    | .found k => (holder s k.number).bind fun i => ((s.slot i).zone).map fun z => (k.number, z)
    | _ => none
  match at_ with
  | some (n, z) => ⟨⟨.pendant, c.zone, some n, some c.pendant, none⟩, none, false, some z⟩
  | none => ⟨⟨.pendant, c.zone, none, some c.pendant, none⟩, none, true, none⟩

/-! ### Commands -/

/-- READ_CREDENTIAL (R75). -/
def execReadCredential (h : Head) (slot : Nat) (s : State) : Out :=
  request h Code.readCredential (fun s =>
    if slot ≥ Config.storeSlots then done h Code.readCredential .badParam [] s
    else askPort h Code.readCredential (.read slot) s) s

/-- WRITE_CREDENTIAL (R76, R77). -/
def execWriteCredential (h : Head) (slot : Nat) (record : RawCredential) (s : State) : Out :=
  request h Code.writeCredential (fun s =>
    match formCredential record with
    | some c =>
      if slot ≥ Config.storeSlots then done h Code.writeCredential .badParam [] s
      else askPort h Code.writeCredential (.write slot c) s
    | none => done h Code.writeCredential .badParam [] s) s

/-- ERASE_CREDENTIAL (R76, R78). -/
def execEraseCredential (h : Head) (slot : Nat) (s : State) : Out :=
  request h Code.eraseCredential (fun s =>
    if slot ≥ Config.storeSlots then done h Code.eraseCredential .badParam [] s
    else askPort h Code.eraseCredential (.erase slot) s) s

/-- MODIFY_CREDENTIAL (R76, R79): from 1 to 8 changes (R200). -/
def execModifyCredential (h : Head) (slot : Nat) (changes : List FieldChange) (s : State) : Out :=
  request h Code.modifyCredential (fun s =>
    if slot ≥ Config.storeSlots || changes.isEmpty || changes.length > 8 ||
        (applyChanges changes Credential.sample).isNone then
      done h Code.modifyCredential .badParam [] s
    else askPort h Code.modifyCredential (.modify slot changes) s) s

/-- SCRUB_INTERVAL_EXPIRY (R71, R82): of a running interval timer, whatever is left of it (log 4). -/
def execScrubIntervalExpiry (s : State) : Out :=
  served (fun s =>
    if s.store.scrubber.interval.isSome then
      arbitrate (onStore (fun t => { t with
        scrubber := { t.scrubber with interval := none, waiting := true, waited := 0 } }) s)
    else s) s

/-- FORCED_TURN (R71): of a waiting scrubber, whatever its wait count shows (log 4). -/
def execForcedTurn (s : State) : Out :=
  served (fun s =>
    if s.store.scrubber.waiting then onStore (fun t => { t with scrubber := { t.scrubber with forced := true } }) s
    else s) s

/-- STORE_GRANT (R69, R70): an IDLE store is granted to the next waiting requester. -/
def execStoreGrant (s : State) : Out := served arbitrate s

/-- PENDANT_LOOKUP_COMPLETE (R74, R140): the pending arrival is made and dropped. -/
def execPendantLookupComplete (check : ReadCheck) (s : State) : Out :=
  served (fun s =>
    match s.store.op with
    | some (.pendant c) =>
      let r := lookUpPendant c.pendant check (releaseStore s)
      let s := r.2
      let s := { s with alarms := { s.alarms with arrivals := s.alarms.arrivals.erase c } }
      arbitrate (arrive (pendantArrival s c r.1) s)
    | _ => s) s

/-- The reply of a Read Credential at its end (R75): the record's fields, all 0 for an empty slot, or the remembered
number of a DAMAGED slot; then the store's counts. A slot, EMPTY or IN-USE, whose read finds a double error answers as the
DAMAGED slot that it has become (log 98). -/
def finishRead (p : Port) (slot : Nat) (check : ReadCheck) (s : State) : State :=
  let absent : List Val := [.u24 0, .u8 0, .u16 0, .u8 0, .u16 0, .u8 0, .u8 0, .u8 0]
  if (s.store.entry slot).cond = .damaged then
    endWork p .damaged (Val.opt24 (s.store.entry slot).number :: storeCounts s) s
  else
    let got := readRecord slot check s
    let s := readEffects slot check s
    match got with
    | none => endWork p .damaged (Val.opt24 (s.store.entry slot).number :: storeCounts s) s
    | some (.record c) => endWork p .done (c.vals ++ storeCounts s) s
    | some _ => endWork p .done (absent ++ storeCounts s) s

/-- READ_CREDENTIAL_COMPLETE (R75). -/
def execReadCredentialComplete (check : ReadCheck) (s : State) : Out :=
  served (fun s =>
    match s.store.op with
    | some (.port p (.read slot)) => arbitrate (finishRead p slot check (releaseStore s))
    | _ => s) s

/-- The record that a Write from a port stores (R80): the Access Port does not set the protected field. -/
def Credential.writtenBy (p : Port) (c : Credential) : Credential :=
  if p = .access then { c with guarded := false } else c

/-- WRITE_CREDENTIAL_COMPLETE (R77). -/
def execWriteCredentialComplete (s : State) : Out :=
  served (fun s =>
    match s.store.op with
    | some (.port p (.write slot c)) =>
      let kept := c.writtenBy p
      let s := onStore (Store.write slot (.record kept)) (releaseStore s)
      arbitrate (endWork p (if kept = c then .done else .doneClamped) [] s)
    | _ => s) s

/-- ERASE_CREDENTIAL_COMPLETE (R78). -/
def execEraseCredentialComplete (s : State) : Out :=
  served (fun s =>
    match s.store.op with
    | some (.port p (.erase slot)) =>
      arbitrate (endWork p .done [] (onStore (Store.write slot .empty) (releaseStore s)))
    | _ => s) s

/-- The steps 1 to 4 of R79 once the store holds the slot. -/
def finishModify (p : Port) (slot : Nat) (changes : List FieldChange) (check : ReadCheck) (s : State) : State :=
  let applied := if p = .access then changes.filter fun c => !setsGuarded c else changes
  let got := readRecord slot check s
  let s := readEffects slot check s
  match got with
  | some (.record old) =>
    match applyChanges applied old with
    | none => endWork p .badParam [] s
    | some new =>
      if s.store.duplicate slot new then endWork p .badParam [] s
      else
        endWork p (if applied.length = changes.length then .done else .doneClamped) []
          (onStore (Store.write slot (.record new)) s)
  | some _ => endWork p .notFound [] s
  | none => endWork p .damaged [] s

/-- MODIFY_CREDENTIAL_COMPLETE (R79). -/
def execModifyCredentialComplete (check : ReadCheck) (s : State) : Out :=
  served (fun s =>
    match s.store.op with
    | some (.port p (.modify slot changes)) => arbitrate (finishModify p slot changes check (releaseStore s))
    | _ => s) s

/-- SCRUB_STEP_COMPLETE (R82): the position advances and the interval starts again. -/
def execScrubStepComplete (check : ReadCheck) (s : State) : Out :=
  served (fun s =>
    match s.store.op with
    | some (.scrub slot) =>
      let s := readEffects slot check (releaseStore s)
      arbitrate (onStore (fun t => { t with scrubber := { t.scrubber with
        position := (slot + 1) % Config.storeSlots, interval := some (scrubInterval s) } }) s)
    | _ => s) s

end Sys2Proof.Machine
end

