-- ==== Sys2Proof/Machine/Doors.lean ====
section
/-! DEFINITION. The Door Controller (03): presentations and their decisions, the pair rule, releases and openings, the
overlays' onsets, node loss and restoration, Remote Release and lockdown. -/

namespace Sys2Proof.Machine

/-! ### A door's volatile state -/

def DoorVol.dec (v : DoorVol) : Side → Option Decision
  | .a => v.decA
  | .b => v.decB

def DoorVol.setDec (v : DoorVol) : Side → Option Decision → DoorVol
  | .a, o => { v with decA := o }
  | .b, o => { v with decB := o }

def DoorVol.setResp (v : DoorVol) : Side → Response → DoorVol
  | .a, r => { v with respA := r }
  | .b, r => { v with respB := r }

/-- The lock output is "unlocked" in RELEASED, OPEN and HELD-OPEN (R39). -/
def DoorState.unlocked : DoorState → Bool
  | .released | .open | .heldOpen => true
  | _ => false

/-- A decision in flight is marked to be discarded with a reason (R41); the mark TOO-LATE, once set, stands. -/
def Decision.mark (why : Refuse) (d : Decision) : Decision :=
  if d.discard = some .tooLate then d else { d with discard := some why }

def DoorVol.markAll (why : Refuse) (v : DoorVol) : DoorVol :=
  { v with decA := v.decA.map (Decision.mark why), decB := v.decB.map (Decision.mark why) }

/-- Nothing of a release or of a pair is held, and no timer runs. -/
def DoorVol.bare (v : DoorVol) : DoorVol :=
  { v with kind := none, pset := [], target := none, pair := none, windowOver := false, timer := none }

/-- The return to SECURE, with both reader responses IDLE (R39). -/
def DoorVol.toSecure (v : DoorVol) : DoorVol := { v.bare with state := .secure, respA := .idle, respB := .idle }

/-- A release (R43, R44, R47, R53, R60), the unlock time U running. -/
def DoorVol.toReleased (kind : ReleaseKind) (pset : List Nat) (target : Option Nat) (u : Nat) (v : DoorVol) : DoorVol :=
  { v.bare with state := .released, kind := some kind, pset, target, timer := some u }.markAll .doorBusy

/-- A forced opening (R52). -/
def DoorVol.toForced (v : DoorVol) : DoorVol :=
  { v.bare with state := .forced, contact := .open }.markAll .tooLate

/-- The fall to FAIL (R58). -/
def DoorVol.toFail (v : DoorVol) : DoorVol :=
  { v.bare with state := .fail, contact := .unknown }.markAll .tooLate

/-- A door changes. A fitted door's lock is written and its node's image noted (R39), a loop test on its node ends when
it leaves SECURE (R179), and its groups learn of a changed known-closed value (R56). A door that goes FAIL does so at its
node's loss, and that loss is what ends the test (R168, step 3). All of it comes before the door's own notice (log 87). -/
def changeDoor (d : Nat) (f : DoorVol → DoorVol) (s : State) : State :=
  let old := s.door d
  let n := (s.config.door d).node
  if n = 0 then putDoor d (f old) s
  else
    let t := carrying [n] (fun s => putBase (n * 16) (f old).state.unlocked (putDoor d (f old) s)) s
    let t := onlyIf (decide (old.state = .secure) && !decide ((f old).state = .secure) && !decide ((f old).state = .fail))
      (endTestOn n .doorChange) t
    onlyIf (!(knownClosed s d == knownClosed t d)) (tellGroups d) t

/-- A door notice (R62): the door, the time of week, and its own values. -/
def doorNotice (d : Nat) (t : NoticeType) (values : List Val) (s : State) : State :=
  offer allPorts t ([.u8 d, .u16 s.clock.timeOfWeek] ++ values) s

/-- The values of the notices of a release (R62): its kind, and the presentation set P, which is its credential numbers
with the target zone of the release (R38). -/
def DoorVol.releaseVals (v : DoorVol) : List Val :=
  Val.opt8 (v.kind.map (·.ctorIdx)) :: counted (v.pset.map fun c => [.u24 c]) ++ [Val.opt8 v.target]

/-- The values of the notices of a pair: the first credential and the target zone (R62). -/
def PairRec.vals (p : PairRec) : List Val := [.u24 p.credential, .u8 p.target]

/-- The place of a response in the list of R39. It is also the outcome of a decision, to which R45 and R62 give no list
(log 55). -/
def Response.place : Response → Nat
  | .idle => 0
  | .admitted => 1
  | .waitSecond => 2
  | .refused _ => 3

/-- The notice "decision" (R45, R62): side, credential, outcome, reason, and the class of a found record (R64).
The outcome is the place of the response, so that an admitted first entrant's is WAIT-SECOND (log 55). -/
def decisionNotice (d : Nat) (side : Side) (c : Nat) (r : Response) (cls : Option CredClass) (s : State) : State :=
  let reason := match r with
    | .refused w => some w.ctorIdx
    | _ => none
  doorNotice d .doorDecision
    [.u8 side.ctorIdx, .u24 c, .u8 r.place, Val.opt8 reason, Val.opt8 (cls.map (·.ctorIdx))] s

/-! ### The arrival of a presentation (R40) -/

/-- A presentation refused at its arrival (R40). -/
def refuseArrival (d : Nat) (p : Presentation) (s : State) : State :=
  decisionNotice d p.side p.credential (.refused .doorBusy) none
    (changeDoor d (fun v => v.setResp p.side (.refused .doorBusy)) s)

/-- A decision begins, and its lookup is asked for (R40). -/
def beginDecision (d : Nat) (p : Presentation) (s : State) : State :=
  askLookup ⟨d, p.side, p.credential⟩
    (changeDoor d (fun v => v.setDec p.side (some ⟨p.credential, p.duress, 0, none⟩)) s)

/-- A presentation arrives at a door (R40): the check-in first, then by the door's state. -/
def present (d : Nat) (p : Presentation) (s : State) : State :=
  let s := checkInPresented p.credential ((s.config.door d).facing p.side) s
  let s := changeDoor d (fun v => v.setResp p.side .idle) s
  let v := s.door d
  if decide (v.state = .pairWait) && v.pair.any fun q => decide (q.side = p.side) && q.credential == p.credential then
    doorNotice d .doorRepeat [.u8 p.side.ctorIdx, .u24 p.credential] s
  else if (v.dec p.side).isSome then refuseArrival d p s
  else match v.state with
    | .secure | .pairWait => beginDecision d p s
    | _ => refuseArrival d p s

/-! ### The decision (R41 to R47) -/

/-- The passback check (R20): none when it refuses, otherwise whether a mismatch was let pass at a soft door. -/
def passbackCheck (s : State) (r : DoorRec) (side : Side) (c : Credential) : Option Bool :=
  let facing := if tracked s (r.facing side) then r.facing side else 0
  match position s c.number with
  | .inPassage => none
  | pos =>
    let stands := match pos with
      | .inZone z => z
      | _ => 0
    if c.exempt || stands == facing then some false
    else match r.passback with
      | .hard => none
      | .soft => some true

/-- The orders 1 and 3 to 6 of R42 for an entry: a refusal, or the record with whether passback was soft. -/
def entryChecks (s : State) (r : DoorRec) (side : Side) (found : Option Credential) : Except Refuse (Credential × Bool) :=
  let t := r.beyond side
  match found with
  | none => .error .unknown
  | some c =>
    if !c.enabled then .error .unknown
    else if zoneSealed s t then .error .sealed
    else if zoneLocked s t then .error .lockdown
    else if !c.perms.getLsbD t then .error .noPermit
    else match passbackCheck s r side c with
      | none => .error .passback
      | some soft => .ok (c, soft)

/-- Order 8 of R42 for tracked target zones (R21). -/
def fitCheck (s : State) (t : Nat) (entrants : List Nat) : Option Refuse :=
  if tracked s t then
    match fit s t entrants with
    | .fits => none
    | .zoneFull => some .zoneFull
    | .rosterFull => some .rosterFull
  else none

/-- What a decision comes to. -/
inductive Verdict where
  | egress
  | refuse (r : Refuse)
  | accept (adm : Option Admission) (soft : Bool)
  | first (c : Credential) (soft : Bool)
  | pair (p : PairRec) (adm1 adm2 : Option Admission) (soft : Bool)
  deriving DecidableEq, Repr

/-- An entry at a door that is not a strongroom door: the orders 7 to 9 (R42, R44). -/
def singleVerdict (s : State) (t : Nat) (c : Credential) (soft : Bool) : Verdict :=
  let adm := if keptAfterHours s t then some (admitOne s t c.number c.right) else none
  if adm = some .refused then .refuse .afterHours
  else match fitCheck s t [c.number] with
    | some r => .refuse r
    | none => .accept adm soft

/-- A first entrant at a strongroom door (R46): asked in the pair-first form, and in time. -/
def firstVerdict (s : State) (r : DoorRec) (t age : Nat) (c : Credential) (soft : Bool) : Verdict :=
  if keptAfterHours s t && !admitFirst s t c.number c.right then .refuse .afterHours
  else match fitCheck s t [c.number] with
    | some r => .refuse r
    | none => if r.w ≤ age then .refuse .pairIncomplete else .first c soft

/-- A second entrant (R47). -/
def secondVerdict (s : State) (t : Nat) (p : PairRec) (c : Credential) (soft : Bool) : Verdict :=
  if position s p.credential = .inPassage then .refuse .passback
  else
    let adms := if keptAfterHours s t then
        (admitPair s t p.credential p.right c.number c.right).map fun a => (some a.1, some a.2)
      else some (none, none)
    match adms with
    | none => .refuse .afterHours
    | some (a1, a2) =>
      match fitCheck s t [p.credential, c.number] with
      | some r => .refuse r
      | none =>
        if p.cls = .custodian ∨ c.cls = .custodian then .pair p a1 a2 soft else .refuse .noCustodian

/-- The decision of a presentation that is not discarded (R42, R46, R47), `found` being the record its lookup returned,
enabled or not. -/
def verdict (s : State) (d : Nat) (side : Side) (age : Nat) (found : Option Credential) : Verdict :=
  let r := s.config.door d
  if r.isEgress side then .egress
  else match entryChecks s r side found with
    | .error w => .refuse w
    | .ok (c, soft) =>
      let t := r.beyond side
      if r.cls = .strongroom then
        match (s.door d).pair with
        | some p => secondVerdict s t p c soft
        | none => firstVerdict s r t age c soft
      else singleVerdict s t c soft

/-- The reason for which a decision is discarded at its completion, if it is (R41): its mark, or the state of the
door. -/
def discardReason (v : DoorVol) (dec : Decision) : Option Refuse :=
  match dec.discard with
  | some w => some w
  | none =>
    match v.state with
    | .secure | .pairWait => none
    | .released | .open | .heldOpen => some .doorBusy
    | .forced | .fail => some .tooLate

/-- The DURESS arrival of a presentation with a valid, enabled record (R45, R138). -/
def raiseDuress (zone : Nat) (found : Option Credential) (duress : Bool) (s : State) : State :=
  match found with
  | some c => if c.enabled && duress then arrive (.plain (.duressOf zone c.number)) s else s
  | none => s

/-- A soft passback that the admission let pass is recorded (R20). -/
def recordSoft (d zone c : Nat) (soft : Bool) (s : State) : State :=
  onlyIf soft (audit .passbackSoft zone (some c) (some d) none none) s

/-- The pair window is over (R46, R48). -/
def windowExpire (d : Nat) (s : State) : State :=
  match (s.door d).pair with
  | some p =>
    doorNotice d .doorPairIncomplete p.vals
      (changeDoor d (fun v => v.toSecure.setResp p.side (.refused .pairIncomplete)) s)
  | none => s

/-- A pair is abandoned by a release (R43, R49). -/
def abandonNotice (d : Nat) (pair : Option PairRec) (s : State) : State :=
  match pair with
  | some p => doorNotice d .doorPairAbandoned p.vals s
  | none => s

/-- The pair side's response returns to IDLE when the pair is abandoned (R43). -/
def DoorVol.idlePairSide (v : DoorVol) : DoorVol :=
  match v.pair with
  | some p => v.setResp p.side .idle
  | none => v

/-- A refused decision (R45): the response, the audit record, the notice; at a first entrant whose window ran out in
the lookup the notice "pair incomplete" too (R46, log 38), after the notice "decision" (log 78). -/
def applyRefusal (d : Nat) (side : Side) (c : Nat) (found : Option Credential) (w : Refuse) (s : State) : State :=
  let t := (s.config.door d).beyond side
  let s := changeDoor d (fun v => (v.setDec side none).setResp side (.refused w)) s
  let s := onlyIf (keptAfterHours s t) (audit .refused t (some c) (some d) none (some w)) s
  let s := decisionNotice d side c (.refused w) (found.map (·.cls)) s
  onlyIf (decide (w = .pairIncomplete)) (doorNotice d .doorPairIncomplete [.u24 c, .u8 t]) s

/-- The effects of a verdict (R43 to R47). An entrant is reserved under the number of the record found, which is the one
presented (R73). The record of a soft passback and its notice (R20) come after the reservation and before the notice
"decision" (log 51). -/
def applyVerdict (d : Nat) (side : Side) (dec : Decision) (found : Option Credential) (v : Verdict) (s : State) : State :=
  let r := s.config.door d
  let t := r.beyond side
  let facing := r.facing side
  let c := dec.credential
  let who := (found.map (·.number)).getD c
  let cls := found.map (·.cls)
  match v with
  | .refuse w => applyRefusal d side c found w s
  | .egress =>
    let pair := (s.door d).pair
    let s := changeDoor d (fun v =>
      ((v.idlePairSide.setDec side none).toReleased .egress [c] (some t) r.u).setResp side .admitted) s
    let s := reserveEgress d t c dec.duress (found.any (·.enabled)) s
    decisionNotice d side c .admitted cls (abandonNotice d pair s)
  | .accept adm soft =>
    let s := changeDoor d (fun v =>
      ((v.setDec side none).toReleased .entry [c] (some t) r.u).setResp side .admitted) s
    let s := reserveEntrant d t who dec.duress adm s
    decisionNotice d side c .admitted cls (recordSoft d facing c soft s)
  | .first k soft =>
    let pair : PairRec := ⟨c, k.cls, side, t, k.right, dec.duress⟩
    let s := changeDoor d (fun v =>
      { v.setDec side none with state := .pairWait, pair := some pair, windowOver := false,
                                timer := some (r.w - dec.age) }.setResp side .waitSecond) s
    decisionNotice d side c .waitSecond cls (recordSoft d facing c soft s)
  | .pair p a1 a2 soft =>
    let s := changeDoor d (fun v =>
      (((v.setDec side none).toReleased .entry [p.credential, c] (some t) r.u).setResp .a .admitted).setResp .b .admitted) s
    let s := reserveEntrant d t p.credential p.duress a1 s
    let s := reserveEntrant d t who dec.duress a2 s
    decisionNotice d side c .admitted cls (recordSoft d facing c soft s)

/-- A decision completes (R41, R42, R45, R48). The duress mark and the DURESS arrival come before the release of R43, and
the notice "pair abandoned" between them and the notice "decision" (log 66). Of a discarded one the notice "decision" comes
before the DURESS arrival (log 112). -/
def complete (d : Nat) (side : Side) (dec : Decision) (r : Looked) (s : State) : State :=
  let found := match r with
    | .found c => some c
    | _ => none
  let zone := (s.config.door d).facing side
  match discardReason (s.door d) dec with
  | some w =>
    let s := changeDoor d (fun v => (v.setDec side none).setResp side (.refused w)) s
    let s := decisionNotice d side dec.credential (.refused w) (found.map (·.cls)) s
    raiseDuress zone found dec.duress s
  | none =>
    let v := verdict s d side dec.age found
    let s := if found.isSome then markDuress dec.credential dec.duress s else s
    let s := raiseDuress zone found dec.duress s
    let s := applyVerdict d side dec found v s
    onlyIf ((s.door d).windowOver && (s.door d).pair.any fun p => decide (p.side = side)) (windowExpire d) s

/-! ### Openings, closings and the buttons (R50 to R54) -/

/-- The door goes FORCED (R52). -/
def goForced (d : Nat) (s : State) : State :=
  let inside := (s.config.door d).sideB
  let s := changeDoor d DoorVol.toForced s
  let s := arrive (.plain (.forcedDoor inside d)) s
  let s := setOccUnknown inside s
  doorNotice d .doorForced [.u8 inside] s

/-- The contact opens (R50, R52, R54). -/
def contactOpens (d : Nat) (s : State) : State :=
  let r := s.config.door d
  match (s.door d).state with
  | .secure =>
    if overrideUnlocks s d then
      changeDoor d (fun v => ({ v.bare with state := .open, kind := some .freeOpening, timer := some r.h,
                                            contact := .open }).markAll .doorBusy) s
    else goForced d s
  | .pairWait => goForced d s
  | .released =>
    let s := changeDoor d (fun v => { v with state := .open, timer := some r.h, contact := .open }) s
    doorNotice d .doorOpened (s.door d).releaseVals s
  | _ => changeDoor d (fun v => { v with contact := .open }) s

/-- The causes that end at the door's contact closing (R143), keyed by the inside zone that the door record names now
(log 59), FORCED-DOOR first (log 87). -/
def endDoorCauses (d : Nat) (s : State) : State :=
  let inside := (s.config.door d).sideB
  endCause (.heldDoor inside d) (endCause (.forcedDoor inside d) s)

/-- The contact closes (R51, R52): a passage commits before the door is SECURE. -/
def contactCloses (d : Nat) (s : State) : State :=
  let v := s.door d
  match v.state with
  | .open | .heldOpen | .forced =>
    let s := onlyIf (!decide (v.state = .forced)) (commit d) s
    let s := changeDoor d (fun v => { v.toSecure with contact := .closed }) s
    let s := endDoorCauses d s
    doorNotice d .doorClosed v.releaseVals s
  | _ => changeDoor d (fun v => { v with contact := .closed }) s

/-- A change of the contact circuit's reading (R39). -/
def contactReads (d : Nat) (r : Option Reading) (s : State) : State :=
  match contactOf r, (s.door d).contact with
  | .open, .open => s
  | .open, _ => contactOpens d s
  | .closed, .closed => s
  | .closed, _ => contactCloses d s
  | .unknown, _ => s

/-- A press of a request-to-exit button (R53). -/
def pressExit (d : Nat) (side : Side) (s : State) : State :=
  let r := s.config.door d
  if r.cls = .strongroom ∧ side = .a then s
  else match (s.door d).state with
    | .secure | .pairWait =>
      let pair := (s.door d).pair
      abandonNotice d pair (changeDoor d (fun v => v.idlePairSide.toReleased .exitButton [] none r.u) s)
    | _ => s

/-! ### The onsets of the overlays (R57) -/

/-- A release is withdrawn (R57). -/
def withdrawRelease (d : Nat) (s : State) : State :=
  let v := s.door d
  doorNotice d .doorReleaseWithdrawn v.releaseVals (cancel d (changeDoor d DoorVol.toSecure s))

/-- A door that waits to let someone into the zone is dealt with (R57), `why` being SEALED or LOCKDOWN. -/
def withdrawDoor (z : Nat) (why : Refuse) (d : Nat) (s : State) : State :=
  let v := s.door d
  let r := s.config.door d
  match v.state with
  | .released =>
    match v.kind with
    | some .entry => if v.target = some z then withdrawRelease d s else s
    | some .remote => if r.sideA = z ∨ r.sideB = z then withdrawRelease d s else s
    | _ => s
  | .pairWait =>
    match v.pair with
    | some p =>
      if p.target = z then
        doorNotice d .doorPairWithdrawn p.vals
          (changeDoor d (fun v => v.toSecure.setResp p.side (.refused why)) s)
      else s
    | none => s
  | _ => s

/-- The onset of an overlay on a zone (R57), its doors in rising order (logs 53 and 79). -/
def overlayOnset (why : Refuse) (z : Nat) (s : State) : State := forEach allDoors (withdrawDoor z why) s

/-! ### Node loss and restoration (R58, R59) -/

/-- The door's node is LOST (R58). What the settled reservation hands on (R26, R27) comes before the notice "node lost"
(log 64), which carries the contact after the change, unknown (log 80). -/
def doorLost (d : Nat) (s : State) : State :=
  let s := match (s.door d).state with
    | .released => cancel d s
    | .open | .heldOpen => commit d s
    | _ => s
  let s := changeDoor d DoorVol.toFail s
  doorNotice d .doorNodeLost [.u8 (s.door d).contact.ctorIdx] s

/-- The door's node has become ONLINE, with this contact in its reply (R59). -/
def doorRestored (d : Nat) (r : Option Reading) (s : State) : State :=
  let inside := (s.config.door d).sideB
  match contactOf r with
  | .closed =>
    let s := changeDoor d (fun v => { v.toSecure with contact := .closed }) s
    doorNotice d .doorNodeRestored [.u8 Contact.closed.ctorIdx] (endDoorCauses d s)
  | .open =>
    let s := endCause (.heldDoor inside d) (goForced d s)
    doorNotice d .doorNodeRestored [.u8 Contact.open.ctorIdx] s
  | .unknown => s

/-! ### Commands -/

/-- CREDENTIAL_LOOKUP_COMPLETE (R73): the result is handed to the decision, unless a Restart dropped it (R83). -/
def execCredentialLookupComplete (check : ReadCheck) (s : State) : Out :=
  served (fun s =>
    match s.store.op with
    | some (.lookup l dropped) =>
      let r := lookUpNumber l.credential check (releaseStore s)
      let s := r.2
      match dropped, (s.door l.door).dec l.side with
      | false, some dec => arbitrate (complete l.door l.side dec r.1 s)
      | _, _ => arbitrate s
    | _ => s) s

/-- REMOTE_RELEASE (R60). -/
def execRemoteRelease (h : Head) (door : Nat) (s : State) : Out :=
  request h Code.remoteRelease (fun s =>
    let finish := fun (r : Result) (s : State) => done h Code.remoteRelease r [] s
    let r := s.config.door door
    let v := s.door door
    if door ≥ Config.doorCount || !fitted s door then finish .badParam s
    else if r.cls = .strongroom then finish .badState s
    else if doorSealed s door || doorLocked s door then finish .badState s
    else if !decide (v.state = .secure) || v.deciding || !online s r.node then finish .badState s
    else finish .done (changeDoor door (DoorVol.toReleased .remote [] none r.u) s)) s

/-- UNLOCK_TIME_EXPIRY (R50): of a RELEASED door. -/
def execUnlockTimeExpiry (door : Nat) (s : State) : Out :=
  served (fun s =>
    let v := s.door door
    if v.state = .released then
      doorNotice door .doorReleaseLapsed v.releaseVals (cancel door (changeDoor door DoorVol.toSecure s))
    else s) s

/-- OPEN_TIME_EXPIRY (R51): of an OPEN door. -/
def execOpenTimeExpiry (door : Nat) (s : State) : Out :=
  served (fun s =>
    if (s.door door).state = .open then
      let inside := (s.config.door door).sideB
      let s := changeDoor door (fun v => { v with state := .heldOpen, timer := none }) s
      doorNotice door .doorHeldOpen [.u8 inside] (arrive (.plain (.heldDoor inside door)) s)
    else s) s

/-- PAIR_WINDOW_EXPIRY (R48): of a PAIR-WAIT door; with a second-entrant decision in flight the expiry waits for it. -/
def execPairWindowExpiry (door : Nat) (s : State) : Out :=
  served (fun s =>
    let v := s.door door
    match v.state, v.pair with
    | .pairWait, some p =>
      if (v.dec p.side).isSome then changeDoor door (fun v => { v with windowOver := true, timer := none }) s
      else windowExpire door s
    | _, _ => s) s

/-- The door notice of a lockdown flag (R13): the zone and its new state. -/
def lockdownNotice (zone : Nat) (s : State) : State :=
  offer allPorts .doorLockdown [.u8 zone, Val.flag (s.zone zone).lockdown] s

/-- LOCKDOWN_ZONE (R13, R57). The zone's notice is offered before the notices of the releases and pairs that the lockdown
withdraws (log 53). -/
def execLockdownZone (h : Head) (zone : Nat) (s : State) : Out :=
  request h Code.lockdownZone (fun s =>
    if zone = 0 || zone > 15 then done h Code.lockdownZone .badParam [] s
    else if (s.zone zone).lockdown then done h Code.lockdownZone .done [] s
    else
      let s := lockdownNotice zone (putZone zone { s.zone zone with lockdown := true } s)
      done h Code.lockdownZone .done [] (overlayOnset .lockdown zone s)) s

/-- LIFT_LOCKDOWN (R13). -/
def execLiftLockdown (h : Head) (zone : Nat) (s : State) : Out :=
  request h Code.liftLockdown (fun s =>
    if zone = 0 || zone > 15 then done h Code.liftLockdown .badParam [] s
    else if !(s.zone zone).lockdown then done h Code.liftLockdown .done [] s
    else done h Code.liftLockdown .done [] (lockdownNotice zone (putZone zone { s.zone zone with lockdown := false } s))) s

end Sys2Proof.Machine
end

