-- ==== Sys2Proof/Machine/Groups.lean ====
section
/-! DEFINITION. The Release Controller's passages that begin and end egress-only (06): evaluation, detection and
confirmation, manual release, discharge, and the requests of the Fire Port; with the hand-on order of R130. -/

namespace Sys2Proof.Machine

/-! ### A change of state and its hand-on (R130) -/

/-- The points whose override entries the change from `old` suspends or applies again (R184). -/
def standingChanged (old s : State) : List Nat :=
  (s.points.overrides.map (·.1)).filter fun pt => !((suspendedBy old pt).isSome == (suspendedBy s pt).isSome)

/-- The override table is told of an onset or an end (R184): urgent entries for the nodes whose outputs change, in rising
order of the points (log 105), and the notice with the group and the points. -/
def tellOverrides (g : Nat) (onset : Bool) (old named s : State) : State :=
  let pts := standingChanged old named
  let s := noteImages old (pts.map (· / 16)) s
  onlyIf (!pts.isEmpty)
    (offer [.console] (if onset then .nodeOverridesSuspended else .nodeOverridesApplied)
      (.u8 g :: counted (pts.map fun pt => [.u16 pt]))) s

/-- A group goes to a state, and the change is handed on in the order of R130, after the notice "state changed" (log 88).
An onset takes the zones of the group in rising order, and within a zone its doors (log 79). The overrides of the group's
outputs are suspended, or applied again, with the change of state itself, before the doors (log 121). -/
def changeGroup (g : Nat) (st : GroupState) (cause : Cause) (s : State) : State :=
  let was := (s.group g).state.egressOnly
  let named := nameState g st cause s
  let onset := !was && st.egressOnly
  let t := onlyIf onset (fun t => forEach (groupZones t g) (overlayOnset .sealed) t) named
  let t := onlyIf (!(was == st.egressOnly)) (tellOverrides g onset s named) t
  writeWarnings g (testSeesGroup g t)

/-! ### Confirmation and evaluation (R108 to R111) -/

/-- A countdown begins (R110): HELD when a hold is in force, otherwise COUNTDOWN. -/
def beginCountdown (g : Nat) (cause : Cause) (s : State) : State :=
  let d := delayD s g
  let s := onGroup g (fun v => { v with remaining := some d, elapsed := some 0, manual := false }) s
  changeGroup g (if holdInForce s g then .held else .countdown) cause s

/-- A confirmation reaches a group in NORMAL or ALERT (R110). -/
def confirm (g : Nat) (cause : Cause) (s : State) : State :=
  if (s.group g).spent then groupNotice g .groupNoAgent [] s else beginCountdown g cause s

/-- The manual release circuits that read ACTIVE. -/
def standingManuals (s : State) (g : Nat) : List Nat :=
  (groupCircuits s g .manualRelease).filter fun pt => reading s (pt / 16) (pt % 16) == some .active

/-- The evaluation of a group (R108), with its further notices after "state changed" (log 88), "no agent" before "manual
input standing" (log 115). -/
def evaluate (g : Nat) (cause : Cause) (s : State) : State :=
  let t :=
    if crossStands s g then
      if (s.group g).spent then groupNotice g .groupNoAgent [] (changeGroup g .alert cause s)
      else beginCountdown g cause s
    else changeGroup g (if anyActive s g then .alert else .normal) cause s
  forEach (standingManuals t g) (fun _ => groupNotice g .groupManualStanding []) t

/-- The first full pass has completed (R108, R170): every group in STARTUP is evaluated, in
rising order (log 90). -/
def evaluateStartup (s : State) : State :=
  forEach allGroups (fun g t => if (t.group g).state = .startup then evaluate g (.unstated 0) t else t) s

/-- The detector points of a group on a node, in the order of their circuits. -/
def detectorsOn (s : State) (g n : Nat) : List Nat :=
  (allCircuits.map fun c => n * 16 + c).filter fun pt => (s.config.group g).detectors.any fun d => d.1 == pt

/-- A detector circuit of the group has changed between active and not active, or into or out of a fault (R106). -/
def detectorChanged (old s : State) (pt : Nat) : Bool :=
  !(detActive old pt == detActive s pt) || !(detFault old pt == detFault s pt)

/-- The notices of a detector circuit (R106): one for a change of activity, one for a passage into or out of a fault,
in this order (log 89). -/
def detectorNotices (old : State) (g pt : Nat) (s : State) : State :=
  let t := onlyIf (!(detActive old pt == detActive s pt)) (groupNotice g .groupDetection []) s
  onlyIf (!(detFault old pt == detFault s pt)) (groupNotice g .groupDetectorFault []) t

def newlyActive (old s : State) (pt : Nat) : Bool := detActive s pt && !detActive old pt

/-- What the group does at a change of one of its detector circuits (R109). The image is whole when the circuits of a
reply are handed on (R154, R162), so the first of them that is newly active is the one that brings cross-confirmation to
stand (log 75). A group that stands in NORMAL with circuits active, which its record has named while they were, is confirmed
at the next newly active one where cross-confirmation then stands (log 99). -/
def detectionReaction (old : State) (g pt : Nat) (s : State) : State :=
  let newly := newlyActive old s pt
  let comes := crossStands s g && !crossStands old g && (detectorsOn s g (pt / 16)).find? (newlyActive old s) == some pt
  match (s.group g).state with
  | .normal =>
    if newly then
      let t := changeGroup g .alert .detection s
      onlyIf (crossStands s g) (confirm g .detection) t
    else s
  | .alert =>
    if comes then confirm g .detection s
    else if !anyActive s g then changeGroup g .normal .detection s
    else s
  | .lockout => onlyIf comes (groupNotice g .groupConfirmedInLockout []) s
  | _ => s

/-- The detector circuits of a node that have changed since `old` are handed on in circuit order (R162), each with its
notices and then what its group does (R106, R109, log 89). -/
def detectionSeen (old : State) (n : Nat) (s : State) : State :=
  forEach allCircuits (fun c s =>
    let pt := n * 16 + c
    forEach allGroups (fun g t =>
      if (detectorsOn t g n).contains pt && detectorChanged old t pt then
        detectionReaction old g pt (detectorNotices old g pt t)
      else t) s) s

/-! ### Holds and manual release (R117 to R122) -/

/-- The abort circuit of the group whose being held has changed since `old`, as the source of a hold's notice: one that is
or was a circuit of the group; of several, the first in point order (log 96). -/
def changedAbort (old s : State) (g : Nat) : Nat :=
  ((groupCircuits old g .abort ++ groupCircuits s g .abort).find? fun pt =>
    !((heldAborts old g).contains pt == (heldAborts s g).contains pt)).getD 0

/-- The notice of a passage of an abort circuit into or out of a fault reading (R106), to the group of its zone. -/
def abortNotice (old : State) (z n c : Nat) (s : State) : State :=
  match zoneGroup s z with
  | some g => onlyIf (!(isFault (reading old n c) == isFault (reading s n c))) (groupNotice g .groupAbortFault []) s
  | none => s

/-- The notices of a node whose circuits have become unreported since `old`, in circuit order (R106, log 73). The groups
act on none of it. -/
def circuitsForgotten (old : State) (n : Nat) (s : State) : State :=
  forEach allCircuits (fun c s =>
    match nodeType old n with
    | .detector =>
      forEach allGroups (fun g t =>
        onlyIf ((detectorsOn old g n).contains (n * 16 + c)) (detectorNotices old g (n * 16 + c)) t) s
    | .station => onlyIf (decide (circuitFn old n c = .abort)) (abortNotice old (nodeRec old n).zone n c) s
    | _ => s) s

/-- The holds of a group are judged again against how they stood in `old` (R117). -/
def judgeSince (old : State) (g : Nat) (s : State) : State := judgeHold g (holdInForce old g) (changedAbort old s g) s

/-- The groups in whose zones a station node stands, or stood in `old`. -/
def stationGroups (old s : State) (n : Nat) : List Nat :=
  allGroups.filter fun g => zoneGroup old (nodeRec old n).zone == some g || zoneGroup s (nodeRec s n).zone == some g

/-- The holds of a station node's groups are judged again (R117), in rising order (log 90). -/
def judgeStation (old : State) (n : Nat) (s : State) : State := forEach (stationGroups old s n) (judgeSince old) s

/-- The holds of every group are judged again, in group order (log 90). -/
def judgeHolds (old : State) (s : State) : State := forEach allGroups (judgeSince old) s

/-- A press of a manual release circuit of the group, on a station node (R121). The notice "manual release" comes after
"state changed" (log 88). -/
def pressManual (g n : Nat) (s : State) : State :=
  let v := s.group g
  let taken := fun (s : State) =>
    groupNotice g .groupManualRelease [.u8 n, .u16 ((s.group g).remaining.getD 0)] s
  match v.state with
  | .normal | .alert =>
    if v.spent then groupNotice g .groupNoAgent [] s
    else
      let dm := delayM s g
      let s := onGroup g (fun v => { v with remaining := some dm, elapsed := some 0, manual := true }) s
      taken (changeGroup g .countdown .manualPress s)
  | .countdown | .held =>
    let dm := delayM s g
    let rem := min (v.remaining.getD 0) dm
    let s := onGroup g (fun v => { v with remaining := some rem, elapsed := some (dm - rem), manual := true }) s
    taken (onlyIf (decide (v.state = .held)) (changeGroup g .countdown .manualPress) s)
  | .discharged => onlyIf v.spent (groupNotice g .groupNoAgent []) s
  | .lockout => groupNotice g .groupManualInLockout [] s
  | .startup | .sealWait | .releasing => s

/-! ### Discharge (R124, R125) -/

/-- The agent-spent flag takes a value, its cell's write begins (R206), and a change gives its notice (R129). A write
of the cell still in progress is finished first. -/
def writeSpent (g : Nat) (v : Bool) (s : State) : State :=
  let was := (s.group g).spent
  let finished := match Tab.get none s.nv.spentWrites g with
    | some w => Tab.set .mismatch s.nv.spent g (if w then .set else .clear)
    | none => s.nv.spent
  let s := { s with nv := { s.nv with spent := finished, spentWrites := Tab.set none s.nv.spentWrites g (some v) } }
  let s := onGroup g (fun u => { u with spent := v }) s
  onlyIf (!(was == v)) (groupNotice g .groupSpentChanged []) s

/-- The zones of a group for which a discharge raises an alarm (R125), whether the arrival then merges or overflows
(log 69). -/
def dischargeZones (s : State) (g : Nat) : List Nat :=
  (groupZones s g).filter fun z => 0 < occupancy s z || (s.zone z).occUnknown

/-- The end of the pulse (R124) and the entry to DISCHARGED (R125); "discharged" is the last of its notices (log 88). -/
def discharge (g : Nat) (s : State) : State :=
  let pair := (s.config.group g).pair
  let s := onGroup g (fun v => { v with remaining := none, elapsed := none, manual := false, pulse := none }) s
  let s := changeGroup g .discharged .timer (putLine pair false s)
  let s := writeSpent g true s
  let zs := dischargeZones s g
  let s := forEach zs (fun z => arrive (.plain (.atDischarge z))) s
  groupNotice g .groupDischarged [.u16 (zoneBits zs)] (endGrants g s)

/-! ### Commands -/

/-- A Fire Port request for a group 0..3. -/
def groupRequest (h : Head) (code g : Nat) (run : State → Result × State) (s : State) : Out :=
  request h code (fun s =>
    if g > 3 then done h code .badParam [] s
    else
      let r := run s
      done h code r.1 [] r.2) s

/-- CONFIRM_FIRE (R111). -/
def execConfirmFire (h : Head) (group : Nat) (s : State) : Out :=
  groupRequest h Code.confirmFire group (fun s =>
    match (s.group group).state with
    | .normal | .alert => (if (s.group group).spent then .badState else .done, confirm group .confirmFire s)
    | .startup | .lockout => (.badState, s)
    | _ => (.done, s)) s

/-- The panel hold flag takes a value, and the hold is judged again (R117, R119). -/
def setPanelHold (g : Nat) (v : Bool) (s : State) : State :=
  if (s.group g).panelHold = v then s
  else judgeHold g (holdInForce s g) 0 (onGroup g (fun u => { u with panelHold := v }) s)

/-- PANEL_HOLD (R119). -/
def execPanelHold (h : Head) (group : Nat) (s : State) : Out :=
  groupRequest h Code.panelHold group (fun s => (.done, setPanelHold group true s)) s

/-- PANEL_RESUME (R119). -/
def execPanelResume (h : Head) (group : Nat) (s : State) : Out :=
  groupRequest h Code.panelResume group (fun s => (.done, setPanelHold group false s)) s

/-- The Override Hold marks with those of more nodes, in the order of the addresses. -/
def withMarks (more marks : List Nat) : List Nat := allNodes.filter fun n => marks.contains n || more.contains n

/-- The LOST station nodes of the group are marked, and its hold is judged again (R120). -/
def markLost (g : Nat) (s : State) : State :=
  let more := (groupStations s g).filter (lost s)
  judgeSince s g { s with release := { s.release with holdMarks := withMarks more s.release.holdMarks } }

/-- OVERRIDE_HOLD (R120). -/
def execOverrideHold (h : Head) (group : Nat) (s : State) : Out :=
  groupRequest h Code.overrideHold group (fun s => (.done, markLost group s)) s

/-- The group goes to LOCKOUT, its countdown abandoned (R127). -/
def lockOut (g : Nat) (s : State) : State :=
  changeGroup g .lockout .request
    (onGroup g (fun v => { v with remaining := none, elapsed := none, manual := false, sealTimer := none }) s)

/-- LOCKOUT (R127). -/
def execLockout (h : Head) (group : Nat) (s : State) : Out :=
  groupRequest h Code.lockout group (fun s =>
    match (s.group group).state with
    | .releasing | .discharged => (.badState, s)
    | .lockout => (.done, s)
    | _ => (.done, lockOut group s)) s

/-- LIFT_LOCKOUT (R128). -/
def execLiftLockout (h : Head) (group : Nat) (s : State) : Out :=
  groupRequest h Code.liftLockout group (fun s =>
    if (s.group group).state ≠ .lockout ∨ !s.configValid then (.badState, s)
    else if s.loop.passDone then (.done, evaluate group .request s)
    else (.done, changeGroup group .startup .request s)) s

/-- DECLARE_CLEAR (R126). The evaluation is made at once, before the first full pass since a Restart too (log 104). -/
def execDeclareClear (h : Head) (group : Nat) (s : State) : Out :=
  groupRequest h Code.declareClear group (fun s =>
    if (s.group group).state = .discharged then (.done, evaluate group .request s) else (.badState, s)) s

/-- REARM (R129): in flight until the flag's write has persisted (R189). -/
def execRearm (h : Head) (group : Nat) (s : State) : Out :=
  request h Code.rearm (fun s =>
    if group > 3 then done h Code.rearm .badParam [] s
    else if !(s.group group).state.quiet then done h Code.rearm .badState [] s
    else beginWork h Code.rearm (.rearm group) (writeSpent group false s)) s

/-- COUNTDOWN_TICK (R115): of a group in COUNTDOWN. -/
def execCountdownTick (group : Nat) (s : State) : Out :=
  served (onlyIf (decide ((s.group group).state = .countdown)) (countTick group)) s

/-- COUNTDOWN_END (R115): the tick that brings a remaining of 1 to 0 (R114). -/
def execCountdownEnd (group : Nat) (s : State) : Out :=
  served (onlyIf (decide ((s.group group).state = .countdown) && decide ((s.group group).remaining.getD 0 ≤ 1))
    (countTick group)) s

/-- SEAL_TIMER_EXPIRY (R123). -/
def execSealTimerExpiry (group : Nat) (s : State) : Out := served (sealExpire group) s

/-- PULSE_TIMER_EXPIRY (R124, R125): of a group in RELEASING. -/
def execPulseTimerExpiry (group : Nat) (s : State) : Out :=
  served (onlyIf (decide ((s.group group).state = .releasing)) (discharge group)) s

end Sys2Proof.Machine
end

