-- ==== Sys2Proof/Machine/LoopTest.lean ====
section
/-! DEFINITION. The loop integrity test (09): the byte sequence (R175), the checker (R177), the window and its
compressed result (R178), and the console's requests. -/

namespace Sys2Proof.Machine

/-! ### The test pattern (R175) -/

/-- One bit step: the new bit is the exclusive-or of stages 6 and 7, and the stages shift by one. -/
def shiftStage (r : BitVec 7) : BitVec 7 :=
  let bit := r.getLsbD 5 != r.getLsbD 6
  (r <<< 1) ||| (if bit then 1 else 0)

/-- The register after `n` bit steps. -/
def shiftStages : Nat → BitVec 7 → BitVec 7
  | 0, r => r
  | n + 1, r => shiftStages n (shiftStage r)

/-- The eight output bits of the next eight steps, the first the most significant: the last seven stand in the register,
and the first is stage 1 after one step. -/
def nextByte (r : BitVec 7) : Byte :=
  let top : Byte := if (shiftStage r).getLsbD 0 then 0x80#8 else 0#8
  top ||| (shiftStages 8 r).setWidth 8

/-- The register that a byte's seven low bits fix. -/
def stagesOf (b : Byte) : BitVec 7 := b.setWidth 7

/-! ### The checker (R177) -/

/-- The checker judges a TEST exchange: its echo, or none where it FAILED. -/
def LoopTest.judge (echo : Option Byte) (t : LoopTest) : LoopTest :=
  if t.inSync then
    let reg := t.checker.getD 0
    let next := nextByte reg
    let t := { t with checker := some (stagesOf next) }
    if echo = some next then { t with misses := 0 }
    else
      let misses := t.misses + 1
      if misses ≥ 8 then
        { t with inSync := false, checker := none, hits := 0, misses, errors := Config.count16 }
      else { t with misses, errors := bump Config.count16 t.errors }
  else
    match echo with
    | none => { t with hits := 0, checker := none }
    | some b =>
      let hit := t.checker.any fun r => nextByte r == b
      let reg := if stagesOf b = 0 then none else some (stagesOf b)
      let hits := if hit then t.hits + 1 else 0
      if hits ≥ 8 then { t with inSync := true, checker := reg, hits, misses := 0, errors := 0 }
      else { t with checker := reg, hits }

/-! ### Window and result (R178) -/

/-- The exponent and mantissa of a count as one byte, trying exponents from `e` on. -/
def compressFrom : Nat → Nat → Nat → Nat
  | 0, e, n => 16 * e + n
  | fuel + 1, e, n => if n ≤ 15 then 16 * e + n else compressFrom fuel (e + 1) (n / 2)

/-- The compressed form of a count up to 65535. -/
def compress (n : Nat) : Nat := compressFrom 12 0 n

/-- The end of a window. -/
def LoopTest.endWindow (t : LoopTest) : LoopTest :=
  { t with
    result := some (if t.inSync then BitVec.ofNat 8 (compress t.errors) else 0xFF#8)
    windows := bump Config.count16 t.windows
    inWindow := 0
    errors := if t.inSync then 0 else Config.count16 }

def putTest (t : LoopTest) (s : State) : State := { s with loopTest := some t }

/-- The running test's window ends, with its notice (R178). -/
def windowEnd (t : LoopTest) (s : State) : State :=
  let t := t.endWindow
  offer [.console] .nodeTestResult [Val.opt8 (t.result.map BitVec.toNat), .u16 t.windows] (putTest t s)

/-- A TEST exchange of the running test has ended (R176 to R178): the sequence advances, the checker judges, and the
exchange counts in the window. -/
def testEnded (echo : Option Byte) (s : State) : State :=
  match runningTest s with
  | none => s
  | some t =>
    let moved := { t with position := (t.position + 1) % 127, sender := stagesOf (nextByte t.sender) }
    let judged := moved.judge echo
    let s := onlyIf (!(judged.inSync == t.inSync)) (offer [.console] .nodeTestSync [.u8 (if judged.inSync then 1 else 0)]) s
    let counted := { judged with inWindow := judged.inWindow + 1 }
    if counted.inWindow ≥ counted.window then windowEnd counted s else putTest counted s

/-! ### Commands -/

/-- The test as it begins (R174). -/
def LoopTest.start (node window : Nat) (watched : List Nat) : LoopTest :=
  { node, window, inWindow := 0, position := 0, sender := 0x7F#7, inSync := false, checker := none, hits := 0,
    misses := 0, errors := Config.count16, result := none, windows := 0, watched, cause := none }

/-- START_LOOP_TEST (R174). -/
def execStartLoopTest (h : Head) (node window : Nat) (s : State) : Out :=
  request h Code.startLoopTest (fun s =>
    let finish := fun (r : Result) (s : State) => done h Code.startLoopTest r [] s
    let doorBusy := match doorOfNode s node with
      | some d => !decide ((s.door d).state = .secure) || (s.door d).deciding
      | none => false
    if node = 0 || node > Config.nodeMax || !configured s node then finish .badParam s
    else if (runningTest s).isSome then finish .badState s
    else if !online s node then finish .badState s
    else if decide (nodeType s node = .door) && doorBusy then finish .badState s
    else if (groupsOfNode s node).any fun g => !(s.group g).state.quiet then finish .badState s
    else
      let w := clamped 16 4096 window
      let s := putTest (LoopTest.start node w.1 (groupsOfNode s node)) s
      let s := offer [.console] .nodeTestStarted [.u8 node, .u16 w.1] s
      finish (if w.2 then .doneClamped else .done) s) s

/-- STOP_LOOP_TEST (R179). -/
def execStopLoopTest (h : Head) (s : State) : Out :=
  request h Code.stopLoopTest (fun s =>
    if (runningTest s).isSome then done h Code.stopLoopTest .done [] (endTest .stopped s)
    else done h Code.stopLoopTest .badState [] s) s

/-- The values of Read Loop Test (R180): whether a test has run since power-on (log 22) and whether one is running, then
the running or last test's state; an ended test shows its cause. With no test run, every value is 0. -/
def loopTestVals (s : State) : List Val :=
  match s.loopTest with
  | none => [.u8 0, .u8 0, .u8 0, .u16 0, .u8 0, .u16 0, .u16 0, .u8 0, .u8 0, .u16 0, .u8 0]
  | some t =>
    [.u8 1, Val.flag t.cause.isNone, .u8 t.node, .u16 t.window, .u8 (if t.inSync then 1 else 0), .u16 t.errors,
     .u16 t.inWindow, .u8 t.position, Val.opt8 (t.result.map BitVec.toNat), .u16 t.windows,
     Val.opt8 (t.cause.map (·.ctorIdx))]

/-- READ_LOOP_TEST (R180). -/
def execReadLoopTest (h : Head) (s : State) : Out :=
  request h Code.readLoopTest (fun s => done h Code.readLoopTest .done (loopTestVals s) s) s

end Sys2Proof.Machine
end

