-- ==== Sys2Proof/Machine/Loop.lean ====
section
/-! DEFINITION. The Loop Controller (08): the characters of an attempt, the next exchange, attempts and retries,
supervision, the hand-on of readings and events, and the first full pass. -/

namespace Sys2Proof.Machine

/-! ### The poll (R158, R200) -/

/-- The code of a reader response in the POLL data. -/
def Response.code : Response → Nat
  | .idle => 0x00
  | .admitted => 0x01
  | .waitSecond => 0x02
  | .refused w => 0x10 + w.ctorIdx

/-- The byte in which bit `k` stands for the `k`-th of a list of outputs. -/
def outputByte (bs : List Bool) : Byte :=
  BitVec.ofNat 8 ((bs.zipIdx.map fun b => if b.1 then 2 ^ b.2 else 0).sum)

/-- The data characters of a POLL: outputs 15..8, then 7..0, and for a DOOR node its responses and fail mode. -/
def pollData (door : Bool) (i : Image) : List Byte :=
  [outputByte (i.outputs.drop 8), outputByte (i.outputs.take 8)] ++
    if door then
      [BitVec.ofNat 8 i.respA.code, BitVec.ofNat 8 i.respB.code, BitVec.ofNat 8 i.failMode.ctorIdx]
    else []

/-- The characters of a poll from its address, its command bits with the toggle, and its data. -/
def pollChars (n : Nat) (command : Nat) (toggle : Bool) (data : List Byte) : List LoopChar :=
  let head := [BitVec.ofNat 8 n, BitVec.ofNat 8 (command * 64 + (if toggle then 16 else 0) + data.length)]
  let frame := head ++ data
  ⟨true, BitVec.ofNat 8 n⟩ :: (frame.tail ++ [checkByte frame]).map fun b => ⟨false, b⟩

/-- The characters of an attempt for the node as the part stands (R160). A TEST carries no toggle (R161), and its bit is
sent as 0 (log 72). -/
def attemptChars (s : State) (n : Nat) : Command → List LoopChar
  | .poll => pollChars n 1 (s.node n).toggle (pollData (decide (nodeType s n = .door)) (image s n))
  | .test b => pollChars n 2 false [b]

/-! ### The next exchange (R164, R165, R176) -/

def onLoop (f : Loop → Loop) (s : State) : State := { s with loop := f s.loop }

/-- An exchange begins, with the timing settings and the node's record in force (R166); its poll is being sent (R158). -/
def beginExchange (n : Nat) (urgent : Bool) (command : Command) (s : State) : State :=
  let ex : Exchange :=
    { node := n, command, urgent, step := !urgent, fails := 0, quiet := false, stale := false,
      judged := decide (command ≠ .poll), timing := s.config.timing, frame := attemptChars s n command,
      record := s.config.node n, sending := true }
  onLoop (fun l => { l with exchange := some ex }) s

/-- The loop driver enable, the output LOOP_DE: asserted while the master sends, and released otherwise, as while the
poller is idle (R158, R173, section 11.6). -/
def driverEnable (s : State) : Bool := s.loop.exchange.any fun e => e.sending

/-- The node's entry leaves the urgent queue. -/
def Loop.dropUrgent (n : Nat) (l : Loop) : Loop := { l with urgent := l.urgent.filter fun m => !(m == n) }

/-- A list step: a TEST while a loop test runs on the node, otherwise a POLL (R164, R176). From its first TEST on the node
receives no POLL, so an entry queued for it before the test is dropped (log 43). -/
def listStep (s : State) : State :=
  match s.config.pollList[s.loop.position]? with
  | none => s
  | some n =>
    match runningTest s with
    | some t =>
      if t.node = n then beginExchange n false (.test (nextByte t.sender)) (onLoop (Loop.dropUrgent n) s)
      else beginExchange n false .poll s
    | none => beginExchange n false .poll s

/-- The poller takes its next exchange: the urgent entries of the gap, then the next list step; none while the
configuration is invalid or the list is empty. -/
def nextExchange (s : State) : State :=
  if !s.configValid || s.config.pollList.isEmpty || s.loop.exchange.isSome then s
  else
    match s.loop.gapLeft, s.loop.urgent with
    | k + 1, n :: rest => beginExchange n true .poll (onLoop (fun l => { l with gapLeft := k, urgent := rest }) s)
    | _, _ => listStep (onLoop (fun l => { l with gapLeft := 0 }) s)

/-! ### Hand-on (R155, R162, R168) -/

/-- The call circuits of a zone. -/
def callCircuits (s : State) (z : Nat) : List Nat :=
  (allNodes.filter fun n => decide (nodeType s n = .station) && (nodeRec s n).zone == z).flatMap fun n =>
    (allCircuits.filter fun c => decide (circuitFn s n c = .call)).map fun c => n * 16 + c

/-- A call circuit of the zone reads ACTIVE (R142). -/
def callActive (s : State) (z : Nat) : Bool :=
  (callCircuits s z).any fun pt => reading s (pt / 16) (pt % 16) == some .active

/-- A call circuit of the zone stands on a node whose first report since the Restart is still to come (R152). -/
def callDue (s : State) (z : Nat) : Bool := (callCircuits s z).any fun pt => s.loop.reportsDue.contains (pt / 16)

/-- The cause of a zone's CALL-STATION record is judged by the readings (R142): active while a call circuit of the zone
reads ACTIVE. `left` says that a circuit has just left ACTIVE; without it the cause stands while first reports are due
(log 19). -/
def judgeCall (left : Bool) (z : Nat) (s : State) : State :=
  match alarmKeyed s (.call z) with
  | none => s
  | some r =>
    if callActive s z then onlyIf (!r.active) (putAlarm { r with active := true }) s
    else onlyIf (r.active && (left || !callDue s z)) (endRecordCause r) s

/-- A press: the passage from NORMAL to ACTIVE. -/
def pressed (old s : State) (n c : Nat) : Bool :=
  reading old n c == some .normal && reading s n c == some .active

/-- A changed circuit of a STATION node is handed to its owner (R155); `judged` where the holds of its groups have been
judged already, the node having just become ONLINE or its record having just taken effect. The notice of an abort circuit
comes before the judgement that its own change brings (log 96). -/
def stationCircuit (old : State) (n : Nat) (judged : Bool) (c : Nat) (s : State) : State :=
  let pt := n * 16 + c
  let z := (nodeRec s n).zone
  match circuitFn s n c with
  | .none => s
  | .abort =>
    match zoneGroup s z with
    | none => s
    | some g => onlyIf (!judged && changedAbort old s g == pt) (judgeSince old g) (abortNotice old z n c s)
  | .manualRelease =>
    match zoneGroup s z with
    | none => s
    | some g => onlyIf (pressed old s n c) (pressManual g n) s
  | .call =>
    if pressed old s n c then arrive (.plain (.call z)) s
    else judgeCall (reading old n c == some .active) z s
  | .checkIn => onlyIf (pressed old s n c) (checkInButton z) s

/-- The circuits of a STATION node are read by another record than in `old` (R153). -/
def stationMoved (old s : State) (n : Nat) : Bool :=
  decide (nodeType s n = .station) && !decide (nodeRec old n = nodeRec s n)

/-- The changed circuits of a node are handed on in circuit order (R162), `old` being the part before the reply. -/
def handCircuits (old : State) (n : Nat) (passage : Bool) (s : State) : State :=
  let changed := fun c => !(reading old n c == reading s n c)
  match nodeType s n with
  | .door =>
    match doorOfNode s n with
    | none => s
    | some d =>
      let s := onlyIf (pressed old s n 0) (pressExit d .a) s
      let s := onlyIf (pressed old s n 1) (pressExit d .b) s
      onlyIf (!passage && changed 2) (contactReads d (reading s n 2)) s
  | .detector => onlyIf (!passage) (detectionSeen old n) s
  | .station => forEach (allCircuits.filter changed) (stationCircuit old n (passage || stationMoved old s n)) s
  | _ => s

/-- The causes of the call records are judged once more when a station node has handed on a change or is gone, for the
zones whose circuits its record has moved (R153), and for those that waited for this node (R152), zone by zone (log 95). -/
def judgeCalls (s : State) : State := forEach allZones (judgeCall false) s

/-- The events of a reply go to the owner of their kind; others are discarded (R155). -/
def handEvents (n : Nat) (ev : LoopEvents) (s : State) : State :=
  match ev, nodeType s n with
  | .presentations es, .door =>
    match doorOfNode s n with
    | some d => forEach es (present d) s
    | none => s
  | .reports ps, .pendant => forEach ps (fun p => pendantReport ⟨p, (nodeRec s n).zone⟩) s
  | _, _ => s

/-- The notice of a node's passage into LOST or ONLINE (R168). -/
def nodeNotice (t : NoticeType) (n : Nat) (former : Supervision) (s : State) : State :=
  offer [.console, .fire] t
    [.u8 n, .u8 (nodeType s n).ctorIdx, .u8 former.ctorIdx, .u16 s.clock.timeOfWeek] s

/-- The Release Controller is told of the passage of a node (R106, R168): its detectors are read again, and the holds of
a station's groups are judged again. -/
def releaseSees (old : State) (n : Nat) (s : State) : State :=
  match nodeType s n with
  | .detector => detectionSeen old n s
  | .station => judgeStation old n s
  | _ => s

/-- A node has become LOST (R168): its door, the Release Controller, the loop test, and the notice. -/
def nodeLost (old : State) (n : Nat) (former : Supervision) (s : State) : State :=
  let s := match nodeType s n, doorOfNode s n with
    | .door, some d => doorLost d s
    | _, _ => s
  let s := releaseSees old n s
  nodeNotice .nodeLost n former (endTestOn n .nodeLost s)

/-- A node has reported, or is made NONE or retyped: its first report since the Restart is no longer due (R152). A loss
brings no report, so a call cause stays active through it (R142, R168). -/
def Loop.reported (n : Nat) (l : Loop) : Loop := { l with reportsDue := l.reportsDue.filter fun m => !(m == n) }

/-- A node has become ONLINE (R168). -/
def nodeOnline (old : State) (n : Nat) (former : Supervision) (s : State) : State :=
  let s := match nodeType s n, doorOfNode s n with
    | .door, some d => doorRestored d (reading s n 2) s
    | _, _ => s
  let s := { s with release := { s.release with holdMarks := s.release.holdMarks.filter fun m => !(m == n) } }
  nodeNotice .nodeRestored n former (releaseSees old n s)

/-! ### Supervision (R167) -/

/-- A node after a GOOD or a FAILED exchange, with the thresholds in force. -/
def NodeVol.counted (t : LoopTiming) (good : Bool) (v : NodeVol) : NodeVol :=
  match v.sup, good with
  | .unknown, true => { v with sup := .online, f := 0, g := 0 }
  | .unknown, false => { v with sup := .lost, f := 0, g := 0 }
  | .online, true => { v with f := 0 }
  | .online, false =>
    let f := bump 15 v.f
    if f ≥ t.l then { v with sup := .lost, f := 0, g := 0 } else { v with f, g := 0 }
  | .lost, true =>
    let g := bump 15 v.g
    if g ≥ t.g then { v with sup := .online, f := 0, g := 0 } else { v with g }
  | .lost, false => { v with g := 0 }

/-- A node's supervision counts an exchange; a passage is handed on (R168). -/
def supervise (n : Nat) (t : LoopTiming) (good : Bool) (old s : State) : State :=
  let was := (s.node n).sup
  let v := (s.node n).counted t good
  let s := putNode n v s
  if v.sup = was then s
  else match v.sup with
    | .lost => nodeLost old n was s
    | .online => nodeOnline old n was s
    | .unknown => s

/-! ### The end of an exchange (R160 to R170) -/

/-- How an exchange ends; a GOOD TEST brings its echo. -/
inductive Ending where
  | good (toggle : Bool) (readings : List Reading) (events : LoopEvents)
  | echo (b : Byte)
  | busy
  | failed
  deriving DecidableEq, Repr

/-- The input image as a reply writes it. Where that hands a change on from the node, its circuits are read from here on
by the record with which the exchange began (R153, R166); a PENDANT node's reports always are. -/
def takeReadings (n : Nat) (r : NodeRec) (rs : List Reading) (s : State) : State :=
  let v := s.node n
  let changes := !decide (v.input = rs) || decide (nodeType s n = .pendant)
  putNode n { v with
    input := rs
    readBy := if changes then (if r = s.config.node n then none else some r) else v.readBy } s

/-- The holds of a STATION node's groups are judged where its circuits are read by another record than in `old` (R117). -/
def judgeMoved (old : State) (n : Nat) (s : State) : State := onlyIf (stationMoved old s n) (judgeStation old n) s

/-- A GOOD exchange carrying a POLL is handed on by the node's state (R161, R162); `r` is the node's record with which it
began. -/
def handReply (n : Nat) (r : NodeRec) (t : LoopTiming) (toggle : Bool) (rs : List Reading) (ev : LoopEvents)
    (s : State) : State :=
  let old := s
  let was := (s.node n).sup
  let next := ((s.node n).counted t true).sup
  let fresh := toggle == (s.node n).toggle
  let s := if next = .online then takeReadings n r rs s else s
  let s := supervise n t true old s
  let s := if next = .online then onLoop (Loop.reported n) s else s
  let s := if next = .online ∧ was = .online then judgeMoved old n s else s
  let s := if next = .online then handCircuits old n (!decide (was = .online)) s else s
  let s := onlyIf (decide (next = .online ∧ nodeType s n = .station) && !decide ((old.node n).input = rs)) judgeCalls s
  let s := if next = .online ∧ fresh then handEvents n ev s else s
  onlyIf fresh (fun s => putNode n { s.node n with toggle := !(s.node n).toggle } s) s

/-- What the end of an exchange means for its node. -/
def endOn (ex : Exchange) (e : Ending) (s : State) : State :=
  match e with
  | .good toggle rs ev => handReply ex.node ex.record ex.timing toggle rs ev s
  | .busy => s
  | .echo b => supervise ex.node ex.timing true s (onlyIf ex.judged (testEnded (some b)) s)
  | .failed => supervise ex.node ex.timing false s (onlyIf ex.judged (testEnded none) s)

/-- The outcome of an exchange; nothing where the node was made NONE or retyped meanwhile (log 17). -/
def exchangeOutcome (ex : Exchange) (e : Ending) (s : State) : State := if ex.stale then s else endOn ex e s

/-- A list with the mark of a position set, the positions before it unmarked where they have none. -/
def markTried : Nat → List Bool → List Bool
  | 0, [] => [true]
  | 0, _ :: t => true :: t
  | k + 1, [] => false :: markTried k []
  | k + 1, b :: t => b :: markTried k t

/-- Every entry of the poll list has been tried (R170). -/
def allTried (s : State) : Bool := (List.range s.config.pollList.length).all fun i => s.loop.tried[i]? == some true

/-- The first full pass completes (R170): the groups in STARTUP are evaluated, and the notice is given. -/
def checkPass (s : State) : State :=
  if s.configValid && !s.loop.passDone && allTried s then
    let s := evaluateStartup (onLoop (fun l => { l with passDone := true }) s)
    offer [.console, .fire] .nodeFirstPass [] s
  else s

/-- The list is walked from position 0 again; before the pass is complete it begins again (R164, R170). -/
def Loop.startOver (l : Loop) : Loop :=
  { l with position := 0, rewritten := false, tried := if l.passDone then l.tried else [] }

/-- The poller moves on at the end of an exchange: a rewritten list is taken from position 0; a list step is tried and
left behind. -/
def leaveStep (ex : Exchange) (s : State) : State :=
  if s.loop.rewritten then onLoop Loop.startOver s
  else if ex.step then
    onLoop (fun l => { l with
      tried := markTried l.position l.tried,
      position := (l.position + 1) % (max 1 s.config.pollList.length) }) s
  else s

/-- An exchange ends: its outcome is handed on, the poller moves on, the pass is judged, and the next exchange begins;
after a list step the urgent entries then queued are the gap's (R165). -/
def endExchange (ex : Exchange) (e : Ending) (s : State) : State :=
  let s := onLoop (fun l => { l with exchange := none }) s
  let s := checkPass (leaveStep ex (exchangeOutcome ex e s))
  let s := if ex.urgent then s else onLoop (fun l => { l with gapLeft := l.urgent.length }) s
  nextExchange s

/-- The node keeps the reason of a failed attempt (R157, R185). -/
def noteFailure (ex : Exchange) (r : Option FailReason) (s : State) : State :=
  if ex.stale || r.isNone then s else putNode ex.node { s.node ex.node with lastFail := r } s

/-- An attempt fails (R160): the loop goes quiet for the next, or the exchange ends FAILED after R + 1. -/
def attemptFails (r : Option FailReason) (s : State) : State :=
  match s.loop.exchange with
  | none => s
  | some ex =>
    if ex.quiet then s
    else
      let s := noteFailure ex r s
      if ex.timing.r ≤ ex.fails then endExchange ex .failed s
      else onLoop (fun l => { l with exchange := some { ex with fails := ex.fails + 1, quiet := true, sending := false } }) s

/-- A reply judged against the command it answers (R159, R160, R176): its ending, or none where the attempt fails. A
READY reply to a POLL has 16 readings and events of at most 14 data characters with the circuits' four. -/
def judgeReply (c : Command) (r : LoopReply) : Option Ending :=
  match c, r with
  | .poll, .ready toggle rs ev =>
    let fits := match ev with
      | .presentations es => decide (es.length ≤ 2)
      | .reports ps => decide (ps.length ≤ 4)
    if rs.length == 16 && fits then some (.good toggle rs ev) else none
  | .poll, .echo _ => none
  | .poll, .busy => some .busy
  | .test _, .echo b => some (.echo b)
  | .test _, _ => none

/-! ### Commands -/

/-- GOOD_REPLY (R159, R160). -/
def execGoodReply (reply : LoopReply) (s : State) : Out :=
  served (fun s =>
    match s.loop.exchange with
    | none => s
    | some ex =>
      if ex.quiet then s
      else match judgeReply ex.command reply with
        | some e => endExchange ex e s
        | none => attemptFails none s) s

/-- REPLY_TIMEOUT (R159). -/
def execReplyTimeout (s : State) : Out := served (attemptFails (some .timeout)) s

/-- FAULTY_CHARACTER (R157). -/
def execFaultyCharacter (fault : CharFault) (s : State) : Out :=
  served (attemptFails (some (match fault with
    | .parity => .parity
    | .framing => .framing
    | .overrun => .overrun))) s

/-- The tests of R159 that are asked of a reply to the command: three of a POLL alone, one of a TEST alone. -/
def ReplyFault.asked (c : Command) (f : ReplyFault) : Bool :=
  match f with
  | .tooShort | .notWholeEvents | .tooManyEvents => decide (c = .poll)
  | .testReply => !decide (c = .poll)
  | _ => true

/-- ATTEMPT_FAILS_ON_REPLY (R159): whichever of the tests asked of it the reply fails. -/
def execAttemptFailsOnReply (fault : ReplyFault) (s : State) : Out :=
  served (fun s => onlyIf (s.loop.exchange.any fun ex => ReplyFault.asked ex.command fault) (attemptFails none) s) s

/-- RETRY (R160): after the quiet the poll is sent again, with the image as it stands. -/
def execRetry (s : State) : Out :=
  served (fun s =>
    match s.loop.exchange with
    | none => s
    | some ex =>
      if ex.quiet then
        let frame := if ex.stale then ex.frame else attemptChars s ex.node ex.command
        onLoop (fun l => { l with exchange := some { ex with quiet := false, frame, sending := true } }) s
      else s) s

/-- The TEST exchange in flight is the one whose end fills the window of the running test. -/
def fillsWindow (s : State) (ex : Exchange) : Bool :=
  ex.judged && !ex.stale && !ex.quiet && (runningTest s).any fun t => t.inWindow + 1 ≥ t.window

/-- LOOP_TEST_WINDOW_END (R178): the TEST exchange that fills the window ends, GOOD with its echo or FAILED at its last
attempt; a window already full ends. The outcome FAILED names no cause, and the last failure reason stays (log 119). -/
def execLoopTestWindowEnd (outcome : TestEnd) (s : State) : Out :=
  served (fun s =>
    match s.loop.exchange with
    | some ex =>
      if fillsWindow s ex then
        match outcome with
        | .good b => endExchange ex (.echo b) s
        | .failed => if ex.timing.r ≤ ex.fails then endExchange ex .failed s else s
      else s
    | none =>
      match runningTest s with
      | some t => if t.inWindow ≥ t.window then windowEnd t s else s
      | none => s) s

end Sys2Proof.Machine
end

