-- ==== Sys2Proof/Machine/Clock.lean ====
section
/-! DEFINITION. The Clock (01): the minute step with the grant expiries it reaches, Set Time and Set Closure Day. -/

namespace Sys2Proof.Machine

/-- The closure-day flag is cleared, with its notice where it was set (R10). -/
def clearClosure (s : State) : State :=
  if s.clock.closureDay.isSome then
    offer allPorts .clockClosureCleared [] { s with clock := { s.clock with closureDay := none } }
  else s

/-- The LIVE grants whose expiry the clock has reached expire (R92), in grant number order (log 81). -/
def expireGrants (s : State) : State :=
  forEach (allGrants.filter fun g =>
    decide ((s.grant g).state = .live) && (s.grant g).expiry == s.clock.timeOfWeek) expireGrant s

/-- The minute step (R8, R92): the clock, the day rollover, the evaluation, and after it the expiries (log 82). -/
def minuteStep (s : State) : State :=
  let tow := (s.clock.timeOfWeek + 1) % Config.weekMinutes
  let s := { s with clock := { s.clock with timeOfWeek := tow, minuteTimer := 0 } }
  let s := onlyIf (tow % Config.dayMinutes == 0) clearClosure s
  expireGrants (evaluateZones s)

/-- Every check-in deadline is moved by the ticks that the clock moves (R9). -/
def shiftDeadlines (ticks : Nat) (s : State) : State :=
  forEach (allSlots.filter fun i => (s.slot i).deadline.isSome)
    (fun i t => putSlot i { t.slot i with deadline := (t.slot i).deadline.map (Deadline.shift ticks) } t) s

/-- Every grant expiry is moved by the minutes that the clock moves (R9). -/
def shiftExpiries (minutes : Nat) (s : State) : State :=
  forEach (allGrants.filter fun g => !decide ((s.grant g).state = .free))
    (fun g t => putGrant g { t.grant g with expiry := ((t.grant g).expiry + minutes) % Config.weekMinutes } t) s

/-- Set Time in range (R9). The notice "time set" follows those of the closure day and of the transitions that the time
brings (log 52). -/
def setTime (minute : Nat) (s : State) : State :=
  let old := s.clock
  let ticks := (minute * Config.minuteTicks + Config.weekTicks
    - (old.timeOfWeek * Config.minuteTicks + old.minuteTimer)) % Config.weekTicks
  let minutes := (minute + Config.weekMinutes - old.timeOfWeek) % Config.weekMinutes
  let s := { s with clock := { old with timeOfWeek := minute, minuteTimer := 0, timeKnown := true } }
  let s := onlyIf (old.closureDay.any fun d => !(d == s.clock.day)) clearClosure s
  let s := evaluateZones (shiftExpiries minutes (shiftDeadlines ticks s))
  offer allPorts .clockTimeSet [.u16 old.timeOfWeek, .u16 minute, Val.named old.timeKnown] s

/-! ### Commands -/

/-- MINUTE_STEP (R8). -/
def execMinuteStep (s : State) : Out := served minuteStep s

/-- GRANT_EXPIRY (R92): the minute step that reaches the expiry of the LIVE grant; a LIVE grant whose expiry is the
current minute expires. -/
def execGrantExpiry (grant : Nat) (s : State) : Out :=
  served (fun s =>
    let v := s.grant grant
    if v.state ≠ .live then s
    else if v.expiry = s.minuteAfter 1 then minuteStep s
    else if v.expiry = s.clock.timeOfWeek then expireGrant grant s
    else s) s

/-- SET_TIME (R9). -/
def execSetTime (h : Head) (minute : Nat) (s : State) : Out :=
  request h Code.setTime (fun s =>
    if minute ≥ Config.weekMinutes then done h Code.setTime .badParam [] s
    else done h Code.setTime .done [] (setTime minute s)) s

/-- SET_CLOSURE_DAY (R10); a form that is neither is refused as BAD-PARAM (log 22). The
notice of the closure day comes before those of the transitions it brings (log 52). -/
def execSetClosureDay (h : Head) (form : ClosureForm) (s : State) : Out :=
  request h Code.setClosureDay (fun s =>
    let finish := fun (r : Result) (s : State) => done h Code.setClosureDay r [] s
    match form with
    | .clear => finish .done (if s.clock.closureDay.isSome then evaluateZones (clearClosure s) else s)
    | .set =>
      if !s.clock.timeKnown then finish .badState s
      else
        let was := s.clock.closureDay.isSome
        let s := { s with clock := { s.clock with closureDay := some s.clock.day } }
        finish .done (if was then s else evaluateZones (offer allPorts .clockClosureSet [] s))
    | .other => finish .badParam s) s

end Sys2Proof.Machine
end

