-- ==== Sys2Proof/Machine/Overrides.lean ====
section
/-! DEFINITION. The point requests and the override requests (09, R182, R183). -/

namespace Sys2Proof.Machine

/-- A point of a configured node (R181). -/
def pointExists (s : State) (pt : Nat) : Bool :=
  decide (Config.pointMin ≤ pt) && decide (pt ≤ Config.pointMax) && configured s (pt / 16)

/-- A point request for an auxiliary output (R182), `v` giving the new base state from the old. -/
def pointRequest (h : Head) (code pt : Nat) (v : Bool → Bool) (s : State) : Out :=
  request h code (fun s =>
    if !pointExists s pt then done h code .badParam [] s
    else if outputOwner s pt ≠ .none then done h code .badState [] s
    else done h code .done [] (writeBase pt (v (s.base pt)) s)) s

/-- POINT_SET (R182). -/
def execPointSet (h : Head) (point : Nat) (s : State) : Out := pointRequest h Code.pointSet point (fun _ => true) s

/-- POINT_CLEAR (R182). -/
def execPointClear (h : Head) (point : Nat) (s : State) : Out := pointRequest h Code.pointClear point (fun _ => false) s

/-- POINT_TOGGLE (R182). -/
def execPointToggle (h : Head) (point : Nat) (s : State) : Out := pointRequest h Code.pointToggle point (!·) s

/-- The point is the lock output of a STRONGROOM door (R183). -/
def strongroomLock (s : State) (pt : Nat) : Bool :=
  match outputOwner s pt with
  | .lock d => decide ((s.config.door d).cls = .strongroom)
  | _ => false

/-- An override entry is written, its node's image is noted, and the Console Port is told (R183). -/
def writeOverride (pt : Nat) (v : Override) (s : State) : State :=
  offer [.console] (if v = .none then .nodeOverrideCleared else .nodeOverrideSet) [.u16 pt]
    (carrying [pt / 16] (putOverride pt v) s)

/-- An override request (R183); `v` is absent where the request's value is neither ON nor OFF. -/
def overrideRequest (h : Head) (code pt : Nat) (v : Option Override) (s : State) : Out :=
  request h code (fun s =>
    match v with
    | none => done h code .badParam [] s
    | some v =>
      if !pointExists s pt || strongroomLock s pt then done h code .badParam [] s
      else done h code .done [] (writeOverride pt v s)) s

/-- OVERRIDE_SET (R183). -/
def execOverrideSet (h : Head) (point : Nat) (value : SwitchValue) (s : State) : Out :=
  overrideRequest h Code.overrideSet point
    (match value with
     | .off => some .forceOff
     | .on => some .forceOn
     | .other => none) s

/-- OVERRIDE_CLEAR (R183). -/
def execOverrideClear (h : Head) (point : Nat) (s : State) : Out :=
  overrideRequest h Code.overrideClear point (some .none) s

end Sys2Proof.Machine
end

