-- ==== Sys2Proof/Machine/Ports.lean ====
section
/-! DEFINITION. The station ports' own commands (10): the notice filter, frames that are no request, line events, the
transmitter, and the loss of the fire link. -/

namespace Sys2Proof.Machine

/-- The receiver returns to HUNT with nothing assembled (R187). -/
def PortState.abandonFrame (q : PortState) : PortState := { q with receive := .hunt }

/-- A line break (R191). Replies that are ready and wait stay in their places (log 123). -/
def PortState.lineBreak (q : PortState) : PortState :=
  { q with receive := .hunt, busy := [], inFlight := q.inFlight.map fun f => { f with suppressed := true } }

/-- The frame being sent has been sent whole (R190). -/
def PortState.frameSent (q : PortState) : PortState := { q with sending := none }

/-- A port's setting of a rate write whose reply has been sent: due where it changes what the port has or awaits
(R195). -/
def PortState.rateReleased (r : Rate) (q : PortState) : PortState :=
  if q.rateDue = none ∧ r = q.rate then q else { q with rateDue := some r }

/-- The settings of a rate write are released to the three ports (R195). -/
def RateWrite.release (w : RateWrite) (q : Ports) : Ports :=
  { q with
    access := q.access.rateReleased w.access
    fire := q.fire.rateReleased w.fire
    console := q.console.rateReleased w.console }

/-- The rate writes that meet a condition are released, in order. -/
def releaseWhere (p : RateWrite → Bool) (s : State) : State :=
  let ws := s.ports.rateWrites
  { s with ports :=
    (ws.filter p).foldl (fun q w => w.release q) { s.ports with rateWrites := ws.filter fun w => !p w } }

/-- A frame of the port has been sent: a rate write whose reply it was is released (R195). -/
def releaseRates (p : Port) (s : State) : State :=
  if p = .console then releaseWhere (fun w => decide (w.stage = .sending)) s else s

/-- The fire link becomes LOST (R198): the panel holds lapse, each judged (R119), in group order (log 90), and the
Console Port is told. -/
def loseFireLink (s : State) : State :=
  let s := { s with ports := { s.ports with linkPresent := false } }
  let s := forEach allGroups (fun g => setPanelHold g false) s
  offer [.console] .linkLost [.u16 s.clock.timeOfWeek] s

/-! ### Commands -/

/-- SET_NOTICE_FILTER (R193): the reply carries the filter now in force. -/
def execSetNoticeFilter (h : Head) (categories : Byte) (s : State) : Out :=
  request h Code.setNoticeFilter (fun s =>
    let s := onPort h.port (fun q => { q with filter := categories }) s
    done h Code.setNoticeFilter .done [.u8 categories.toNat] s) s

/-- UNKNOWN_REQUEST (R188, check 2). A code that is defined is not this command's, and nothing happens. -/
def execUnknownRequest (h : Head) (code : Nat) (s : State) : Out :=
  served (fun s =>
    if codeDefined code then s
    else
      onFrame h.port (fun s =>
        if (s.port h.port).inFlight.isSome then takeRequest h code id s
        else refuse h.port h.tag code .unknownRequest s) s) s

/-- NON_REQUEST_FRAME (R188): ignored, apart from the supervision of R198. -/
def execNonRequestFrame (port : Port) (s : State) : Out := served (onFrame port id) s

/-- DISCARDED_FRAME (R187): the receiver takes the bytes, and nothing else of the port changes. Bytes that complete a
valid frame are not those of a discarded one, and nothing happens (log 6). -/
def execDiscardedFrame (port : Port) (bytes : List Byte) (s : State) : Out :=
  served (fun s =>
    if (s.port port).receive.completes bytes then s
    else onPort port (fun q => { q with receive := q.receive.takeAll bytes }) s) s

/-- FRAME_GAP (R187). -/
def execFrameGap (port : Port) (s : State) : Out := served (onPort port PortState.abandonFrame) s

/-- RECEIVE_CHARACTER_FAULT (R187). -/
def execReceiveCharacterFault (port : Port) (s : State) : Out := served (onPort port PortState.abandonFrame) s

/-- LINE_BREAK (R191). -/
def execLineBreak (port : Port) (s : State) : Out := served (onPort port PortState.lineBreak) s

/-- TRANSMITTER_FRAME_END (R190): the end of the step takes the next frame. -/
def execTransmitterFrameEnd (port : Port) (s : State) : Out :=
  served (fun s => onPort port PortState.frameSent (releaseRates port s)) s

/-- FIRE_LINK_LOST (R198): of a PRESENT link whose silence timer has run its 100 ticks; a frame taken first has set it
to 0 and keeps the link. -/
def execFireLinkLost (s : State) : Out :=
  served (onlyIf (s.ports.linkPresent && decide (Config.linkSilence ≤ s.ports.silence)) loseFireLink) s

end Sys2Proof.Machine
end

