-- ==== Sys2Proof/Machine/Reads.lean ====
section
/-! DEFINITION. The Read requests that end at their taking (R189): each shows the values standing when it is taken, in
the order in which its rule lists them. -/

namespace Sys2Proof.Machine

/-- A set of points, each as its number. -/
def pointList (pts : List Nat) : List Val := counted (pts.map fun pt => [.u16 pt])

/-- A list of small numbers (doors, nodes). -/
def numberList (ns : List Nat) : List Val := counted (ns.map fun n => [.u8 n])

/-- The settings in force on a port's line. -/
def PortState.rateVals (q : PortState) : List Val := Sys2Proof.Machine.rateVals q.rate

/-- The alarm records that a port may see: DURESS records only on the Console Port (R151). -/
def visibleAlarms (s : State) (p : Port) : List AlarmRec :=
  if p = .console then s.alarms.records else s.alarms.records.filter fun r => !decide (r.key.kind = .duress)

def raisedCount (rs : List AlarmRec) : Nat := rs.countP fun r => !r.acked

/-- The configuration state on the wire: VALID is 0 and INVALID is 1. -/
def configStateVal (s : State) : Val := .u8 (if s.configValid then 0 else 1)

/-- The seven door states, in the order of R38. -/
def doorStates : List DoorState := [.secure, .pairWait, .released, .open, .heldOpen, .forced, .fail]

/-- The values of Read Status (R194). -/
def statusVals (s : State) (p : Port) : List Val :=
  let q := s.port p
  let doors := allDoors.filter (fitted s)
  let notable := doors.filter fun d => match (s.door d).state with
    | .forced | .heldOpen | .fail => true
    | _ => false
  let rs := visibleAlarms s p
  [Val.flag q.lost, .u8 q.notices.length, .u8 q.filter.toNat] ++ q.rateVals ++
    [.u8 (if s.ports.linkPresent then 0 else 1), .u16 s.clock.timeOfWeek, Val.named s.clock.timeKnown,
     Val.named s.clock.closureDay.isSome, configStateVal s] ++
    allGroups.flatMap (fun g => [.u8 (s.group g).state.ctorIdx, Val.named (s.group g).spent]) ++
    doorStates.map (fun st => .u8 (doors.countP fun d => decide ((s.door d).state = st))) ++
    numberList notable ++
    [.u8 rs.length, .u8 (raisedCount rs), Val.flag s.alarms.line, .u16 s.config.windowLow, .u16 s.config.windowHigh]

/-- READ_STATUS (R194): the asking port's notices-lost flag is cleared. -/
def execReadStatus (h : Head) (s : State) : Out :=
  request h Code.readStatus (fun s =>
    let vals := statusVals s h.port
    done h Code.readStatus .done vals (onPort h.port (fun q => { q with lost := false }) s)) s

/-- The values of Read Zone (R4). The class byte of zone 0 is CIRCULATION's (DESIGN CHOICE, log 62). -/
def zoneVals (s : State) (z : Nat) : List Val :=
  (s.config.zone z).vals ++
    [.u8 (occupancy s z), .u8 (committed s z), Val.flag (keptAfterHours s z), Val.flag (zoneLocked s z),
     Val.flag (!(z == 0) && (s.zone z).occUnknown)]

/-- READ_ZONE (R4). -/
def execReadZone (h : Head) (zone : Nat) (s : State) : Out :=
  request h Code.readZone (fun s =>
    if zone > 15 then done h Code.readZone .badParam [] s
    else done h Code.readZone .done (zoneVals s zone) s) s

/-- The values of Read Door (R61). -/
def doorVals (s : State) (d : Nat) : List Val :=
  let r := s.config.door d
  let v := s.door d
  r.vals ++ .u8 v.state.ctorIdx :: v.releaseVals ++
    [Val.opt24 (v.pair.map (·.credential)), Val.opt8 (v.pair.map (·.side.ctorIdx)), Val.opt16 v.timer,
     .u8 v.contact.ctorIdx, Val.flag (knownClosed s d), .u8 (s.node r.node).sup.ctorIdx,
     Val.flag v.decA.isSome, .u8 v.respA.code, Val.flag v.decB.isSome, .u8 v.respB.code,
     Val.flag (doorSealed s d), Val.flag (doorLocked s d)]

/-- READ_DOOR (R61). -/
def execReadDoor (h : Head) (door : Nat) (s : State) : Out :=
  request h Code.readDoor (fun s =>
    if door ≥ Config.doorCount then done h Code.readDoor .badParam [] s
    else done h Code.readDoor .done (doorVals s door) s) s

/-- The values of Read Group (R133), all of them, also where they are more than a frame can hold (log 101). -/
def groupVals (s : State) (g : Nat) : List Val :=
  let v := s.group g
  (s.config.group g).vals (groupZones s g) ++
    [.u8 v.state.ctorIdx, Val.opt16 v.remaining, Val.opt16 v.elapsed, Val.named v.manual, Val.named v.panelHold,
     Val.named v.spent, Val.opt16 (match v.sealTimer with | some t => some t | none => v.pulse),
     .u8 (nEff s g), .u16 (delayD s g), .u16 (delayM s g),
     .u16 (zoneBits ((groupZones s g).filter fun z => (s.zone z).occUnknown))] ++
    pointList (activeOf s g .x) ++ pointList (activeOf s g .y) ++ [Val.flag (crossStands s g)] ++
    pointList (heldAborts s g) ++ numberList ((groupStations s g).filter s.release.holdMarks.contains) ++
    numberList (notClosed s g)

/-- READ_GROUP (R133). -/
def execReadGroup (h : Head) (group : Nat) (s : State) : Out :=
  request h Code.readGroup (fun s =>
    if group > 3 then done h Code.readGroup .badParam [] s
    else done h Code.readGroup .done (groupVals s group) s) s

/-- A slot as Read Roster returns it (R32, R97). -/
def slotVals (i : Nat) (v : Slot) : List Val :=
  [.u8 i, .u8 v.state.ctorIdx, .u24 v.credential, Val.opt8 v.zone, Val.opt8 v.pendZone, Val.opt8 v.pendDoor,
   Val.opt16 v.entered, Val.mark v.mark, Val.mark v.duress, Val.opt8 v.grant,
   Val.opt16 (v.deadline.map (·.minute)), Val.opt16 (v.deadline.map (·.phase)),
   Val.opt8 (v.deadline.map (·.stage.ctorIdx))]

/-- The slots that a Read Roster walks over (R32). -/
def qualifying (s : State) (first filter : Nat) : List Nat :=
  allSlots.filter fun i =>
    let v := s.slot i
    decide (first ≤ i) && !decide (v.state = .free) &&
      (filter == 0 || v.zone == some filter || v.pendZone == some filter)

/-- The values of Read Roster (R32). -/
def rosterVals (s : State) (first filter : Nat) : List Val :=
  let is := qualifying s first filter
  let shown := is.take 8
  let next := if is.length ≤ 8 then 128 else (shown.getLast?.getD 0) + 1
  counted (shown.map fun i => slotVals i (s.slot i)) ++ [.u8 (freeSlots s), .u8 next]

/-- READ_ROSTER (R32). -/
def execReadRoster (h : Head) (first filter : Nat) (s : State) : Out :=
  request h Code.readRoster (fun s =>
    if first ≥ Config.rosterSlots || filter > 15 then done h Code.readRoster .badParam [] s
    else done h Code.readRoster .done (rosterVals s first filter) s) s

/-- A record as Read Alarm Queue returns it (R151): the fields of R135 but the timers, then the escalation time left. -/
def AlarmRec.readVals (r : AlarmRec) : List Val :=
  [.u8 r.number, .u8 r.key.kind.ctorIdx, .u8 r.key.kind.priority, .u8 r.key.zone, Val.opt24 r.key.person,
   Val.opt16 r.key.pendant, Val.opt8 r.key.door, Val.opt8 r.grant, .u16 r.raised, .u8 r.repeats, .u8 (if r.acked then 1 else 0),
   Val.named r.active, r.unlocatedVal, .u8 r.level, Val.opt16 r.escalation]

/-- The values of Read Alarm Queue (R151). -/
def alarmVals (s : State) (p : Port) (first : Nat) : List Val :=
  let rs := visibleAlarms s p
  let rest := rs.drop first
  let next := if rest.length ≤ 8 then 32 else first + 8
  counted ((rest.take 8).map AlarmRec.readVals) ++
    [.u8 rs.length, .u8 (raisedCount rs), .u8 s.alarms.overflow, Val.flag s.alarms.line, .u8 next]

/-- READ_ALARM_QUEUE (R151). -/
def execReadAlarmQueue (h : Head) (first : Nat) (s : State) : Out :=
  request h Code.readAlarmQueue (fun s =>
    if first ≥ Config.alarmMax then done h Code.readAlarmQueue .badParam [] s
    else done h Code.readAlarmQueue .done (alarmVals s h.port first) s) s

/-- The owners of circuits and outputs, in the order of R185. -/
inductive PointOwner where
  | doorController | releaseController | alarmQueue | afterHoursUnit | none
  deriving DecidableEq, Repr

/-- The owner of a circuit (R155). -/
def circuitOwner (s : State) (n c : Nat) : PointOwner :=
  match nodeType s n with
  | .door => if c ≤ 2 ∧ (doorOfNode s n).isSome then .doorController else .none
  | .detector => if allGroups.any fun g => !((detectorsOn s g n).filter (· == n * 16 + c)).isEmpty then .releaseController
    else .none
  | .station =>
    match circuitFn s n c with
    | .abort | .manualRelease => .releaseController
    | .call => .alarmQueue
    | .checkIn => .afterHoursUnit
    | .none => .none
  | _ => .none

/-- The owner of an output (R181). -/
def outputPointOwner (s : State) (pt : Nat) : PointOwner :=
  match outputOwner s pt with
  | .none => .none
  | .lock _ => .doorController
  | .warning _ _ => .releaseController

/-- The group that suspends the override entry of a point that has one (R184). -/
def suspension (s : State) (pt : Nat) : Option Nat := if s.override pt = .none then none else suspendedBy s pt

/-- The values of Read Point (R185); an unreported input is the fifth of its list. -/
def pointVals (s : State) (pt : Nat) : List Val :=
  let n := pt / 16
  let v := s.node n
  [.u8 (match reading s n (pt % 16) with | some r => r.ctorIdx | none => 4), .u8 (circuitOwner s n (pt % 16)).ctorIdx,
   .u8 (outputPointOwner s pt).ctorIdx, Val.named (s.base pt), .u8 (s.override pt).ctorIdx,
   Val.flag (suspension s pt).isSome, Val.opt8 (suspension s pt),
   Val.named (effective s pt), .u8 (nodeType s n).ctorIdx, .u8 v.sup.ctorIdx, .u8 v.f, .u8 v.g,
   Val.opt8 (v.lastFail.map (·.ctorIdx)), Val.flag (testing s n)]

/-- READ_POINT (R185). -/
def execReadPoint (h : Head) (point : Nat) (s : State) : Out :=
  request h Code.readPoint (fun s =>
    if pointExists s point then done h Code.readPoint .done (pointVals s point) s
    else done h Code.readPoint .badParam [] s) s

/-- The record of a kind and index as it stands (R204), or none where R202's index checks refuse. Kinds are numbered by
section 11.1; a kind that has no index takes index 0. -/
def recordVals (s : State) (kind index : Nat) : Option (List Val) :=
  let c := s.config
  match kind with
  | 0 => if 1 ≤ index ∧ index ≤ 15 then some (c.zone index).vals else none
  | 1 => if index ≤ 7 then some (c.schedule index).vals else none
  | 2 => if index < Config.doorCount then some (c.door index).vals else none
  | 3 => if 1 ≤ index ∧ index ≤ Config.nodeMax then some (c.node index).vals else none
  | 4 => if index ≤ 3 then some ((c.group index).vals (c.groupZones index)) else none
  | 5 => if index = 0 then some (numberList c.pollList) else none
  | 6 => if index = 0 then some c.timing.vals else none
  | 7 => if index = 0 then some [.u16 c.scrubInterval, .u16 c.escalation] else none
  | 8 => if index = 0 then some (rateVals c.rateA ++ rateVals c.rateB ++ rateVals c.rateC) else none
  | 9 => if index = 0 then some [.u16 c.windowLow, .u16 c.windowHigh] else none
  | _ => none

/-- READ_CONFIGURATION_RECORD (R204). -/
def execReadConfigurationRecord (h : Head) (kind index : Nat) (s : State) : Out :=
  request h Code.readConfigurationRecord (fun s =>
    match recordVals s kind index with
    | some vals => done h Code.readConfigurationRecord .done (vals ++ [configStateVal s]) s
    | none => done h Code.readConfigurationRecord .badParam [] s) s

end Sys2Proof.Machine
end

