-- ==== Sys2Proof/Machine/Configuration.lean ====
section
/-! DEFINITION. The writes of configuration records (11): what each kind refuses and what a taken write does at once,
and the persistence of a write. -/

namespace Sys2Proof.Machine

/-- What a Write Configuration Record comes to (R202): refused, or taken with its effect, `clamped` saying whether a
value was brought into range. -/
inductive WriteVerdict where
  | refused (r : Result)
  | taken (clamped : Bool) (apply : State → State)

def WriteVerdict.ofChecks (badParam badState clamped : Bool) (apply : State → State) : WriteVerdict :=
  if badParam then .refused .badParam else if badState then .refused .badState else .taken clamped apply

def onConfig (f : Records → Records) (s : State) : State := { s with config := f s.config }

/-- A group that is neither NORMAL nor LOCKOUT. -/
def busyGroup (s : State) (g : Option Nat) : Bool := g.any fun g => !(s.group g).state.quiet

/-! ### Zones and schedules (R1, R2, R5) -/

/-- A zone record that would break a door record's conditions (R1, R35). -/
def breaksDoors (s : State) (z : Nat) (cls : ZoneClass) : Bool :=
  allDoors.any fun d =>
    let r := s.config.door d
    decide (r.cls = .strongroom) &&
      ((r.sideB == z && !decide (cls = .strongroom)) || (r.sideA == z && decide (cls = .strongroom)))

/-- The conditions of R2. -/
def zoneBusy (s : State) (z : Nat) (new : ZoneRec) : Bool :=
  let old := s.config.zone z
  0 < occupancy s z || new.capacity < committed s z ||
    (!(old.tracked == new.tracked) && s.roster.any fun e => e.2.pendZone == some z) ||
    (!(old.group == new.group) && (busyGroup s old.group || busyGroup s new.group)) ||
    (!new.tracked && allGrants.any fun g => !decide ((s.grant g).state = .free) && (s.grant g).zone == z)

/-- A taken zone record (R2): the flag is set when the zone becomes tracked and cleared when it ceases to be. -/
def applyZone (z : Nat) (new : ZoneRec) (s : State) : State :=
  let was := tracked s z
  let t := onConfig (fun c => c.putZone z new) s
  if new.tracked && !was then setOccUnknown z t
  else if was && !new.tracked then clearOccUnknown z t
  else t

def writeZone (s : State) (z : Nat) (raw : RawZone) : WriteVerdict :=
  match zoneOf raw with
  | none => .refused .badParam
  | some (new, clamped) =>
    .ofChecks (z == 0 || z > 15 || breaksDoors s z new.cls) (zoneBusy s z new) clamped (applyZone z new)

def writeSchedule (i : Nat) (ws : List RawWindow) : WriteVerdict :=
  match scheduleOf ws with
  | none => .refused .badParam
  | some (new, clamped) => .ofChecks (i > 7) false clamped (onConfig fun c => c.putSchedule i new)

/-! ### Doors (R35, R36) -/

/-- A group names the point as a warning output. -/
def isWarning (s : State) (pt : Nat) : Bool := allGroups.any fun g => (warningAt s pt g).isSome

/-- The structural conditions of R35. -/
def doorBroken (s : State) (d : Nat) (r : DoorRec) : Bool :=
  let zoneCls := fun z => (s.config.zone z).cls
  let room := decide (r.cls = .strongroom)
  r.sideA == r.sideB || (decide (r.cls = .perimeter) && !(r.sideA == 0)) ||
    (!decide (r.cls = .perimeter) && r.sideA == 0) ||
    (room && (!decide (zoneCls r.sideB = .strongroom) || decide (zoneCls r.sideA = .strongroom))) ||
    (!(r.node == 0) &&
      (!decide (nodeType s r.node = .door) || (allDoors.any fun e => !(e == d) && (s.config.door e).node == r.node) ||
        isWarning s (r.node * 16)))

/-- The door takes up its node as one that is being restored (R36). A door that takes up a LOST node goes to FAIL as at a
node lost, with the notice "node lost" (log 58). -/
def takeUpNode (d : Nat) (s : State) : State :=
  let n := (s.config.door d).node
  if n = 0 then s
  else match (s.node n).sup with
    | .online => doorRestored d (reading s n 2) s
    | .lost => doorLost d s
    | .unknown => s

/-- The override entry of the lock output that the write names is set to NONE, with its notice (R183); where the entry is
NONE already, also of a door that becomes a STRONGROOM door, there is no notice (log 120). -/
def clearLockOverride (n : Nat) (s : State) : State :=
  if n = 0 ∨ s.override (n * 16) = .none then s else writeOverride (n * 16) .none s

/-- A taken door record (R36): the fields, the lock override (R183), the change of node, and the groups whose doors
have changed (R56), in this order (log 94). The urgent entry of the old node comes before that of the new one (log 106).
With a change of node the door's own reader responses become IDLE and its contact unknown, whatever the new node is (log
124). -/
def applyDoor (d : Nat) (new : DoorRec) (s : State) : State :=
  let old := s.config.door d
  let replace := fun (t : State) =>
    let t := onConfig (fun c => c.putDoor d new) t
    if old.node = new.node then t
    else
      let t := putDoor d DoorVol.initial t
      let t := if old.node = 0 then t else putBase (old.node * 16) false t
      if new.node = 0 then t else putBase (new.node * 16) false t
  let t := carrying [old.node, new.node] replace s
  let t := clearLockOverride new.node t
  let t := if old.node = new.node then t else takeUpNode d t
  forEach allGroups (fun g t => if (groupDoors s g).contains d || (groupDoors t g).contains d then sealCheck g t else t) t

def writeDoor (s : State) (d : Nat) (raw : RawDoor) : WriteVerdict :=
  match doorOf raw with
  | none => .refused .badParam
  | some (new, clamped) =>
    .ofChecks (d ≥ Config.doorCount || doorBroken s d new)
      (!decide ((s.door d).state = .secure) || (s.door d).deciding) clamped (applyDoor d new)

/-! ### Nodes and the poll list (R153, R164) -/

/-- A group's record names a point of the node. -/
def groupNames (s : State) (n g : Nat) : Bool :=
  ((s.config.group g).detectors.any fun d => d.1 / 16 == n) || ((s.config.group g).warnings.any fun w => w.1 / 16 == n)

/-- The structural conditions of R153 that depend on other records. -/
def nodeBroken (s : State) (n : Nat) (new : NodeRec) : Bool :=
  let was := nodeType s n
  (!decide (was = new.type) && ((doorOfNode s n).isSome || allGroups.any (groupNames s n))) ||
    (decide (was = .none) && !decide (new.type = .none) && s.config.pollList.length ≥ Config.pollListMax)

/-- The conditions under which R153 refuses a write as BAD-STATE. -/
def nodeBusy (s : State) (n : Nat) (new : NodeRec) : Bool :=
  let old := s.config.node n
  testing s n || ((doorOfNode s n).any fun d => !decide ((s.door d).state = .secure)) ||
    (allGroups.any fun g => groupNames s n g && !(s.group g).state.quiet) ||
    (decide (old.type = .station) && busyGroup s (zoneGroup s old.zone)) ||
    (decide (new.type = .station) && busyGroup s (zoneGroup s new.zone))

/-- The node's own state, its last failure reason with it (log 118), its mark, base states and override entries are
dropped (R153, R181). -/
def forgetNode (n : Nat) (s : State) : State :=
  let s := putNode n NodeVol.initial s
  let s := { s with release := { s.release with holdMarks := s.release.holdMarks.filter fun m => !(m == n) } }
  { s with points := {
      base := s.points.base.filter fun e => !(e.1 / 16 == n),
      overrides := s.points.overrides.filter fun e => !(e.1 / 16 == n) } }

/-- An exchange in flight with the node no longer counts for it (log 17). -/
def Loop.staleNode (n : Nat) (l : Loop) : Loop :=
  { l with exchange := l.exchange.map fun e => if e.node = n then { e with stale := true } else e }

/-- The node's entries leave the poll list and the urgent queue (R153, R170): the position falls by the removed entries
before it, and a list step on a removed entry has nothing to leave. -/
def removeEntries (n : Nat) (s : State) : State :=
  let list := s.config.pollList
  let kept := list.filter fun m => !(m == n)
  let pos := s.loop.position - ((list.take s.loop.position).countP fun m => m == n)
  let tried := ((list.zipIdx.filter fun e => !(e.1 == n)).map fun e => (s.loop.tried[e.2]?).getD false)
  let gone := list[s.loop.position]? == some n
  let inGap := (s.loop.urgent.take s.loop.gapLeft).countP fun m => m == n
  { s with
    config := { s.config with pollList := kept }
    loop := { s.loop with
      position := if pos < kept.length then pos else 0
      tried := tried
      urgent := s.loop.urgent.filter fun m => !(m == n)
      gapLeft := s.loop.gapLeft - inGap
      exchange := s.loop.exchange.map fun e => if e.step && gone then { e with step := false } else e } }

/-- The circuits of a STATION node that is made NONE or retyped read nothing from here on: an abort circuit leaves its
fault (R106), a hold of its group ceases where no other circuit or the panel keeps it (R117), and the cause of its zone's
call record ends where no other circuit keeps it (R142), in this order (log 111). -/
def stationGone (was : State) (n : Nat) (s : State) : State :=
  if nodeType was n = .station then
    let z := (nodeRec was n).zone
    let left := (callCircuits was z).any fun pt => pt / 16 == n && reading was n (pt % 16) == some .active
    judgeCall left z (judgeHolds was (circuitsForgotten was n (onLoop (Loop.reported n) s)))
  else s

/-- The zone or the functions of a node are written: its circuits are read by the record in force until the next change
handed on from the node (R153). -/
def deferRecord (n : Nat) (new : NodeRec) (was s : State) : State :=
  let r := nodeRec was n
  putNode n { s.node n with readBy := if r = new then none else some r } s

/-- A taken node record (R153). -/
def applyNode (n : Nat) (new : NodeRec) (s : State) : State :=
  let old := s.config.node n
  let put := onConfig (fun c => c.putNode n new)
  if old.type = new.type then deferRecord n new s (put s)
  else if new.type = .none then
    let was := s
    let s := removeEntries n (onLoop (Loop.staleNode n) (forgetNode n (put s)))
    nextExchange (checkPass (stationGone was n s))
  else if old.type = .none then
    nextExchange (onConfig (fun c => { c with pollList := c.pollList ++ [n] }) (forgetNode n (put s)))
  else stationGone s n (carrying [n] (fun s => onLoop (Loop.staleNode n) (forgetNode n (put s))) s)

def writeNode (s : State) (n : Nat) (raw : RawNode) : WriteVerdict :=
  match nodeOf raw with
  | none => .refused .badParam
  | some new =>
    .ofChecks (n == 0 || n > Config.nodeMax || nodeBroken s n new) (nodeBusy s n new) false (applyNode n new)

/-- A taken poll list (R164): it is walked from position 0 after the exchange in flight; before the pass is complete no
entry of it has been tried (R170). -/
def applyPollList (ns : List Nat) (s : State) : State :=
  let s := onLoop Loop.startOver (onConfig (fun c => { c with pollList := ns }) s)
  if s.loop.exchange.isSome then onLoop (fun l => { l with rewritten := true }) s
  else nextExchange s

def writePollList (s : State) (ns : List Nat) : WriteVerdict :=
  .ofChecks
    (ns.isEmpty || ns.length > Config.pollListMax || (ns.any fun n => n == 0 || n > Config.nodeMax || !configured s n) ||
      (allNodes.any fun n => configured s n && !ns.contains n))
    false false (applyPollList ns)

/-! ### Groups (R105) -/

/-- The zones of a set on the wire. -/
def zonesOf (zs : ZoneSet) : List Nat := allZones.filter zs.getLsbD

/-- The structural conditions of R105 that depend on other records. A detector point that the record itself names twice is
no such condition (log 100). -/
def groupBroken (s : State) (g : Nat) (zs : ZoneSet) (new : GroupRec) : Bool :=
  let others := allGroups.filter fun k => !(k == g)
  ((zonesOf zs).any fun z => !tracked s z) ||
    (new.detectors.any fun d =>
      d.1 < Config.pointMin || Config.pointMax < d.1 || !decide (nodeType s (d.1 / 16) = .detector) ||
        others.any fun k => (s.config.group k).detectors.any fun e => e.1 == d.1) ||
    (others.any fun k => (s.config.group k).pair == new.pair) ||
    (new.warnings.any fun w =>
      !pointExists s w.1 || match outputOwner s w.1 with
        | .lock _ => true
        | _ => false)

/-- The conditions under which R105 refuses a write as BAD-STATE. -/
def groupBusy (s : State) (g : Nat) (zs : ZoneSet) : Bool :=
  !(s.group g).state.quiet || (zonesOf zs).any fun z => busyGroup s (zoneGroup s z)

/-- The zones of a group become those of the set (R1). -/
def Records.setGroupZones (g : Nat) (zs : ZoneSet) (c : Records) : Records :=
  allZones.foldl (fun c z =>
    let r := c.zone z
    if zs.getLsbD z then c.putZone z { r with group := some g }
    else if r.group = some g then c.putZone z { r with group := none }
    else c) c

/-- A taken group record (R105): an output that becomes auxiliary is left off, and the group writes those it
names (R131, R181), in this order (log 106). Of circuits it names that are active already nothing follows at the write
(log 99). -/
def applyGroup (g : Nat) (zs : ZoneSet) (new : GroupRec) (s : State) : State :=
  let named := (s.config.group g).warnings.map (·.1)
  let s := onConfig (fun c => (c.putGroup g new).setGroupZones g zs) s
  writeWarnings g (forEach (named.filter fun pt => decide (outputOwner s pt = .none)) (fun pt => writeBase pt false) s)

def writeGroup (s : State) (g : Nat) (raw : RawGroup) : WriteVerdict :=
  match groupOf raw with
  | none => .refused .badParam
  | some (new, clamped) =>
    .ofChecks (g > 3 || groupBroken s g raw.zones new) (groupBusy s g raw.zones) clamped (applyGroup g raw.zones new)

/-! ### The other kinds (R82, R147, R171, R195) -/

/-- A taken port rate record: the settings wait for the reply to the write (R195); while the configuration is INVALID the
ports keep the defaults. -/
def applyRates (a b c : Rate) (s : State) : State :=
  let s := onConfig (fun r => { r with rateA := a, rateB := b, rateC := c }) s
  if s.configValid then
    { s with ports := { s.ports with rateWrites := s.ports.rateWrites ++ [⟨.writing, a, b, c⟩] } }
  else s

/-- The verdict on a record (R202); a record of a kind without index is given index 0. -/
def writeVerdict (s : State) (index : Nat) : RawRecord → WriteVerdict
  | .zone r => writeZone s index r
  | .schedule ws => writeSchedule index ws
  | .door r => writeDoor s index r
  | .node r => writeNode s index r
  | .group r => writeGroup s index r
  | .pollList ns => if index = 0 then writePollList s ns else .refused .badParam
  | .loopTiming r =>
    .ofChecks (index != 0) false (timingOf r).2 (onConfig fun c => { c with timing := (timingOf r).1 })
  | .partTimers scrub esc =>
    let a := clamped 5 500 scrub
    let b := clamped 300 6000 esc
    .ofChecks (index != 0) false (a.2 || b.2) (onConfig fun c => { c with scrubInterval := a.1, escalation := b.1 })
  | .portRates a b c =>
    .ofChecks (index != 0) false ((rateOf a).2 || (rateOf b).2 || (rateOf c).2)
      (applyRates (rateOf a).1 (rateOf b).1 (rateOf c).1)
  | .accessWindow _ _ => .refused .badParam
  | .undefined _ => .refused .badParam

/-- A window write is taken (R81): its values stand from the end of the write. -/
def takeWindow (h : Head) (code low high : Nat) (s : State) : State :=
  if low > 511 || high > 511 || low > high then done h code .badParam [] s
  else beginWork h code (.window low high code) s

def isRates : RawRecord → Bool
  | .portRates _ _ _ => true
  | _ => false

/-! ### Commands -/

/-- WRITE_CONFIGURATION_RECORD (R202): a taken write is in flight until it has persisted. -/
def execWriteConfigurationRecord (h : Head) (index : Nat) (record : RawRecord) (s : State) : Out :=
  request h Code.writeConfigurationRecord (fun s =>
    match record with
    | .accessWindow low high =>
      if index = 0 then takeWindow h Code.writeConfigurationRecord low high s
      else done h Code.writeConfigurationRecord .badParam [] s
    | record =>
      match writeVerdict s index record with
      | .refused r => done h Code.writeConfigurationRecord r [] s
      | .taken clamped apply =>
        beginWork h Code.writeConfigurationRecord
          (.region (if clamped then .doneClamped else .done) (isRates record)) (apply s)) s

/-- SET_ACCESS_WINDOW (R81). -/
def execSetAccessWindow (h : Head) (low high : Nat) (s : State) : Out :=
  request h Code.setAccessWindow (takeWindow h Code.setAccessWindow low high) s

/-- The records of working memory stand in the region under a fresh check (R205). -/
def persistRegion (s : State) : State := { s with nv := { s.nv with region := some s.config } }

/-- A write of the port rates has persisted: its settings wait for its reply, which joins the replies at their end (R195);
a suppressed reply, which is never sent, holds nothing (log 110). -/
def holdRates (f : InFlight) (s : State) : State :=
  if f.suppressed then releaseWhere (fun w => decide (w.stage = .writing)) s
  else
    let ahead := s.ports.console.replies.length
    { s with ports := { s.ports with
        rateWrites := s.ports.rateWrites.map fun w => if w.stage = .writing then { w with stage := .queued ahead } else w } }

/-- The Console Port's write has persisted (R81, R202). -/
def regionPersisted (s : State) : State :=
  match s.ports.console.inFlight with
  | some f =>
    match f.work with
    | .region result rates =>
      let s := persistRegion s
      endWork .console result [] (onlyIf rates (holdRates f) s)
    | .window low high _ =>
      let s := persistRegion (onConfig (fun c => { c with windowLow := low, windowHigh := high }) s)
      endWork .console .done [] s
    | _ => s
  | none => s

/-- The write of an agent-spent cell has persisted (R129, R206), with the Rearm that waits for it. -/
def cellPersisted (g : Nat) (s : State) : State :=
  match Tab.get none s.nv.spentWrites g with
  | none => s
  | some v =>
    let s := { s with nv := { s.nv with
      spent := Tab.set .mismatch s.nv.spent g (if v then .set else .clear)
      spentWrites := Tab.set none s.nv.spentWrites g none } }
    match s.ports.fire.inFlight with
    | some f => if f.work = .rearm g then endWork .fire .done [] s else s
    | none => s

/-- CONFIGURATION_WRITE_PERSISTED (R202, R206). -/
def execConfigurationWritePersisted (write : NvWrite) (s : State) : Out :=
  served (match write with
    | .region => regionPersisted
    | .cell g => cellPersisted g) s

end Sys2Proof.Machine
end

