-- ==== Sys2Proof/Machine/Power.lean ====
section
/-! DEFINITION. Power-on, the reset pin, the loss of power, and Restart (11). -/

namespace Sys2Proof.Machine

/-! ### The loads (R84, R205, R206) -/

/-- The records that a region gives (R205): those stored under a matching check, otherwise the defaults. -/
def loadedRecords (region : Option Records) : Records := region.getD Records.default

/-- The flag that an agent-spent cell gives (R206). -/
def SpentCell.flag : SpentCell → Bool
  | .clear => false
  | _ => true

/-- The cells as the load leaves them: a mismatch is rewritten as set (R206). -/
def loadedCells (cells : Tab SpentCell) : Tab SpentCell :=
  allGroups.map fun g => (g, if (Tab.get SpentCell.mismatch cells g).flag then SpentCell.set else SpentCell.clear)

/-- What the load's report says of a slot's check. -/
def LoadReport.check (r : LoadReport) (slot : Nat) : ReadCheck := Tab.get .clean r.checks slot

/-- The slots that the load may find anything in. -/
def loadSlots (cells : Tab Cell) (r : LoadReport) : List Nat :=
  if cells.isEmpty && r.checks.isEmpty then []
  else (List.range Config.storeSlots).filter fun i => (cells.any fun e => e.1 == i) || (r.checks.any fun e => e.1 == i)

/-- The first pass of the load over one slot (R84): a marker or a double error gives an entry of unknown identity, which
counts as protected (R65); a single error is corrected and counted. -/
def loadSlot (r : LoadReport) (i : Nat) (t : Store) : Store :=
  let unknown : IndexEntry := ⟨.damaged, none, none, true⟩
  if (t.cell i).marker then t.putEntry i unknown
  else
    match t.found i (LoadReport.check r i) with
    | .double => (t.putCell i { t.cell i with marker := true }).putEntry i unknown
    | c =>
      let t := if c = .single then { t with corrected := bump Config.count16 t.corrected } else t
      match (t.cell i).contents with
      | .record k => t.putEntry i k.entry
      | _ => t

/-- A slot that holds a number or pendant of a lower slot, neither being damaged, is damaged with its identity kept
(R84); `first` is the index of the first pass. -/
def loadDuplicate (first : Store) (i : Nat) (t : Store) : Store :=
  let e := first.entry i
  let clash := first.index.any fun x => decide (x.1 < i) && decide (x.2.cond = .inUse) &&
    (x.2.number == e.number || (x.2.pendant == e.pendant && !(x.2.pendant == some 0)))
  if decide (e.cond = .inUse) && clash then
    (t.putCell i { t.cell i with marker := true }).putEntry i { e with cond := .damaged }
  else t

/-- The store as a power-on starts it: IDLE, nothing waiting, the scrubber at slot 0 with its interval running (R82). -/
def Store.fresh (cells : Tab Cell) (interval : Nat) : Store :=
  { cells, index := [], corrected := 0, op := none, class1 := [], class2 := [], waitConsole := none, waitFire := none,
    waitAccess := none, scrubber := ⟨0, some interval, false, 0, false⟩ }

/-- The load of the credential store (R84). -/
def loadStore (cells : Tab Cell) (r : LoadReport) (interval : Nat) : Store :=
  let is := loadSlots cells r
  let first := is.foldl (fun t i => loadSlot r i t) (Store.fresh cells interval)
  is.foldl (fun t i => loadDuplicate first i t) first

/-! ### Power-on (R207) -/

/-- A port at power-on, at the rate of its record or the default (R195, R199). -/
def PortState.atRate (rate : Rate) : PortState := { PortState.initial with rate }

/-- The part with every block at its power-on values, for the records, the nonvolatile memory and the store given; no
notice has been offered and the poller has not started. -/
def poweredState (config : Records) (valid : Bool) (nv : Nonvolatile) (store : Store) (pending : List Instr) : State :=
  { serving := true
    clock := ⟨0, 0, false, none⟩
    zones := allZones.foldl (fun t z =>
      Tab.set ZoneCond.initial t z ⟨true, false, (config.zone z).tracked⟩) []
    configValid := valid
    config, nv
    roster := []
    doors := []
    store
    afterHours := ⟨[], [], [], false⟩
    release :=
      { groups := allGroups.foldl (fun t g =>
          Tab.set GroupVol.unwritten t g
            { GroupVol.unwritten with
              state := if valid then .startup else .lockout
              spent := (Tab.get SpentCell.mismatch nv.spent g).flag }) []
        holdMarks := [], lines := [] }
    alarms := ⟨[], 1, 0, [], false⟩
    loop :=
      { nodes := [], position := 0, urgent := [], gapLeft := 0, exchange := none, tried := [], passDone := false,
        rewritten := false, reportsDue := [] }
    loopTest := none
    points := ⟨[], []⟩
    ports :=
      { access := PortState.atRate (if valid then config.rateA else portDefaultRate)
        fire := PortState.atRate (if valid then config.rateB else portDefaultRate)
        console := PortState.atRate (if valid then config.rateC else portDefaultRate)
        linkPresent := true, silence := 0, rateWrites := [] }
    pending }

/-- The slots that a store holds as DAMAGED, in slot order. -/
def Store.damagedSlots (t : Store) : List Nat :=
  (t.index.filter fun e => decide (e.2.cond = .damaged)).map (·.1)

/-- The notices of a power-on, in the order of R207 step 5: the damaged slots, the invalid configuration, and the
agent-spent cells (of the nonvolatile memory `old`) that did not match, in rising order (log 90). -/
def startNotices (old : Tab SpentCell) (s : State) : State :=
  let s := forEach s.store.damagedSlots damagedNotice s
  let s := onlyIf (!s.configValid) (offer groupPorts .groupConfigInvalid [.u16 s.clock.timeOfWeek]) s
  forEach (allGroups.filter fun g => decide (Tab.get SpentCell.mismatch old g = .mismatch))
    (fun g t => groupNotice g .groupSpentChanged [] t) s

/-- The poller starts (R170, R173): an empty list completes the pass at once. -/
def startPoller (s : State) : State := nextExchange (checkPass s)

/-- A power-on (R207). -/
def powerOn (load : LoadReport) (s : State) : State :=
  let config := loadedRecords s.nv.region
  let valid := s.nv.region.isSome
  let nv : Nonvolatile := { region := s.nv.region, spent := loadedCells s.nv.spent, spentWrites := [] }
  let store := loadStore s.store.cells load (if valid then config.scrubInterval else 20)
  startPoller (startNotices s.nv.spent (poweredState config valid nv store s.pending))

/-! ### The reset pin and the loss of power (R83, R203, R206, R207) -/

/-- What the region's write in progress leaves. -/
def regionLeft (fate : WriteFate) (s : State) : Option Records :=
  let new := match s.ports.console.inFlight with
    | some f => match f.work with
      | .region _ _ => some s.config
      | .window low high _ => some { s.config with windowLow := low, windowHigh := high }
      | _ => none
    | none => none
  match new, fate with
  | none, _ => s.nv.region
  | some _, .old => s.nv.region
  | some c, .new => some c
  | some _, .mixed => none

/-- What a cell's write in progress, if there is one, leaves of it (R206). -/
def SpentCell.left (write : Option Bool) (fate : WriteFate) (old : SpentCell) : SpentCell :=
  match write, fate with
  | none, _ => old
  | some _, .old => old
  | some v, .new => if v then .set else .clear
  | some _, .mixed => .mismatch

/-- What the agent-spent cells' writes in progress leave. -/
def cellsLeft (fates : List (Nat × WriteFate)) (s : State) : Tab SpentCell :=
  allGroups.foldl (fun t g => Tab.set .mismatch t g
    ((s.spentCell g).left (Tab.get none s.nv.spentWrites g) (Tab.get .old fates g))) s.nv.spent

/-- The slot that the store's operation may be writing, with the cell that the finished write would leave. An operation
that reads may be writing back what it found (log 28), but for a DAMAGED slot, which is not read (R67). -/
def slotWritten (s : State) : Option (Nat × Cell) :=
  let read := fun i => if (s.store.entry i).cond = .damaged then none else some (i, s.store.cell i)
  let seek := fun (p : IndexEntry → Bool) => (s.store.index.find? fun e => p e.2).bind fun e => read e.1
  match s.store.op with
  | none => none
  | some (.lookup l _) => seek fun e => e.number == some l.credential
  | some (.pendant c) => seek fun e => !(c.pendant == 0) && e.pendant == some c.pendant
  | some (.scrub i) => read i
  | some (.port _ (.read i)) => read i
  | some (.port p (.write i c)) => some (i, ⟨false, .record (c.writtenBy p)⟩)
  | some (.port _ (.erase i)) => some (i, ⟨false, .empty⟩)
  | some (.port p (.modify i cs)) =>
    match (s.store.cell i).contents with
    | .record c =>
      match applyChanges (if p = .access then cs.filter fun c => !setsGuarded c else cs) c with
      | some new => if s.store.duplicate i new then read i else some (i, ⟨false, .record new⟩)
      | none => read i
    | _ => read i

/-- What the store's write in progress leaves (R83). -/
def slotsLeft (fate : WriteFate) (s : State) : Tab Cell :=
  match slotWritten s, fate with
  | some (i, c), .new => Tab.set Cell.fresh s.store.cells i c
  | some (i, _), .mixed => Tab.set Cell.fresh s.store.cells i { s.store.cell i with contents := .unreadable }
  | _, _ => s.store.cells

/-- The part without power, or with its reset pin asserted (R207): nothing is served, every output is off, and of its
state the nonvolatile memory is left. -/
def poweredOff (left : Interrupted) (s : State) : State :=
  let nv : Nonvolatile := { region := regionLeft left.config s, spent := cellsLeft left.cells s, spentWrites := [] }
  { poweredState Records.default false nv (Store.fresh (slotsLeft left.slot s) 20) s.pending with serving := false }

/-! ### Restart (R208) -/

/-- A port at a Restart (R199). Replies that are ready and wait stay in their places (log 123). -/
def PortState.restarted (q : PortState) : PortState :=
  { q with
    receive := .hunt
    inFlight := q.inFlight.map fun f => { f with suppressed := true }
    busy := []
    notices := []
    lost := q.lost || !q.notices.isEmpty }

/-- A rate write whose reply waits when the reply of a Restart goes ahead of it (R195, R208). -/
def RateWrite.movedBack (w : RateWrite) : RateWrite :=
  match w.stage with
  | .queued n => { w with stage := .queued (n + 1) }
  | _ => w

/-- Step 5 with the reply of step 7: the reply is the first frame of the Console Port after the Restart. -/
def restartPorts (h : Head) (s : State) : State :=
  let s := forEach allPorts (fun p => onPort p PortState.restarted) s
  let s := { s with ports := { s.ports with rateWrites := s.ports.rateWrites.map RateWrite.movedBack } }
  onPort h.port (fun q => { q with replies := ⟨h.tag, .done, Code.restart, []⟩ :: q.replies }) s

/-- Step 1: a door's reservation is settled (R34), the doors being taken in rising order (log 65). -/
def settleDoor (d : Nat) (s : State) : State :=
  match (s.door d).state with
  | .open | .heldOpen => commit d s
  | .released => cancel d s
  | _ => s

/-- A node at a Restart (R173): its toggle is kept, and its record as it stands is in force (log 74). -/
def NodeVol.restarted (v : NodeVol) : NodeVol := { NodeVol.initial with toggle := v.toggle }

/-- The station nodes, whose first reports a Restart waits for (R152). -/
def allStations (s : State) : List Nat := allNodes.filter fun n => decide (nodeType s n = .station)

/-- Step 2: the loop (R166, R173, R179). The circuits are unreported from here on: those that were active or in fault give
their notices (R106, log 73), and a hold ceases where it stood on them (R117). -/
def restartLoop (s : State) : State :=
  let old := endTest .restart s
  let t := forEach allNodes (fun n t => putNode n (t.node n).restarted t) old
  judgeHolds old (forEach (old.loop.nodes.map (·.1)) (circuitsForgotten old) { t with
    loop := { t.loop with
      position := 0, urgent := [], gapLeft := 0, exchange := none, tried := [], passDone := false, rewritten := false,
      reportsDue := allStations t }
    release := { t.release with holdMarks := [] } })

/-- Step 3: a door is reset (R63), its lock written as locked. -/
def resetDoor (d : Nat) (s : State) : State :=
  let n := (s.config.door d).node
  if n = 0 then s
  else carrying [n] (fun t => putBase (n * 16) false (putDoor d DoorVol.initial t)) s

/-- The waiting lookups of decisions are withdrawn, and a running one is dropped (R83). -/
def Store.withdraw (t : Store) : Store :=
  { t with
    class1 := []
    op := match t.op with
      | some (.lookup l _) => some (.lookup l true)
      | o => o }

/-- Step 4: a group that is neither in LOCKOUT nor in DISCHARGED goes to STARTUP; the groups in rising order (log 90). -/
def restartGroup (g : Nat) (s : State) : State :=
  match (s.group g).state with
  | .lockout | .discharged | .startup => s
  | _ => changeGroup g .startup .request s

/-- Step 6: an INVALID configuration is loaded and judged again (R205). Where the check still fails there is no second
notice "configuration invalid" (log 125). -/
def rejudge (s : State) : State :=
  match s.configValid, s.nv.region with
  | false, some r => { s with config := r, configValid := true }
  | _, _ => s

/-- A Restart that is taken (R208). The ports come first, so that the notices of the change follow the reply. The doors are
reset in rising order (log 107). -/
def restartPart (h : Head) (s : State) : State :=
  let s := restartPorts h s
  let s := forEach allDoors settleDoor s
  let s := restartLoop s
  let s := onStore Store.withdraw (forEach allDoors resetDoor s)
  startPoller (rejudge (forEach allGroups restartGroup s))

/-- A group state in which a Restart is refused (R208). -/
def GroupState.running : GroupState → Bool
  | .countdown | .held | .sealWait | .releasing => true
  | _ => false

/-! ### Commands -/

/-- POWER_ON (R207). -/
def execPowerOn (load : LoadReport) (s : State) : Out := .next (settlePorts (powerOn load s))

/-- RESET_ASSERTED (R207): the part stops as at a loss of power. -/
def execResetAsserted (left : Interrupted) (s : State) : Out :=
  .next (if s.serving then poweredOff left s else s)

/-- POWER_LOSS (R83, R203, R206). -/
def execPowerLoss (left : Interrupted) (s : State) : Out :=
  .next (if s.serving then poweredOff left s else s)

/-- RESTART (R208). -/
def execRestart (h : Head) (s : State) : Out :=
  request h Code.restart (fun s =>
    if allGroups.any fun g => (s.group g).state.running then done h Code.restart .badState [] s
    else restartPart h s) s

end Sys2Proof.Machine
end

