-- ==== Sys2Proof/Machine/Tick.lean ====
section
/-! DEFINITION. The tick of 100 ms (00): what `step` does on an empty queue in place of idling (log 2). Every timer that
the state holds counts one tick, and each event that the tick makes due is put into the queue as its command. -/

namespace Sys2Proof.Machine

/-- A timer counts down, stopping at 0. -/
def countDown (t : Option Nat) : Option Nat := t.map (· - 1)

/-- A timer that this tick brings to its end. -/
def runsOut (t : Option Nat) : Bool := t.any (· ≤ 1)

/-- A door at a tick: its timer, and the age of its decisions (R46). -/
def DoorVol.ticked (v : DoorVol) : DoorVol :=
  let older := fun (d : Decision) => { d with age := d.age + 1 }
  { v with timer := countDown v.timer, decA := v.decA.map older, decB := v.decB.map older }

/-- The scrubber at a tick (R71, R82). -/
def Scrubber.ticked (v : Scrubber) : Scrubber :=
  { v with
    interval := countDown v.interval
    waited := if v.waiting then bump Config.forcedTurnWait v.waited else v.waited }

/-- A group at a tick: its seal and pulse timers; a countdown counts at its own command (R115). -/
def GroupVol.ticked (v : GroupVol) : GroupVol :=
  { v with sealTimer := countDown v.sealTimer, pulse := countDown v.pulse }

/-- An alarm record at a tick. -/
def AlarmRec.ticked (r : AlarmRec) : AlarmRec :=
  { r with escalation := countDown r.escalation, silence := countDown r.silence }

/-- The loop at a tick: a poll takes less than a tick to send, so the loop driver enable is released (R158, log 10). -/
def Loop.ticked (l : Loop) : Loop := { l with exchange := l.exchange.map fun e => { e with sending := false } }

/-- The timers of the part count one tick. The minute timer stays at 599 for the minute step that is then due. -/
def countTimers (s : State) : State :=
  let s := { s with clock := { s.clock with minuteTimer := min (Config.minuteTicks - 1) (s.clock.minuteTimer + 1) } }
  let s := forEach (s.doors.map (·.1)) (fun d t => putDoor d (t.door d).ticked t) s
  let s := onStore (fun t => { t with scrubber := t.scrubber.ticked }) s
  let s := forEach allGroups (fun g t => putGroup g (t.group g).ticked t) s
  let s := putRecords (s.alarms.records.map AlarmRec.ticked) s
  let s := onLoop Loop.ticked s
  if s.ports.linkPresent then
    { s with ports := { s.ports with silence := bump Config.linkSilence s.ports.silence } }
  else s

/-- The writes to the Configuration Memory persist within a tick (R202, R206). -/
def dueWrites (s : State) : List Instr :=
  let region := match s.ports.console.inFlight with
    | some f => match f.work with
      | .region _ _ | .window _ _ _ => true
      | _ => false
    | none => false
  (if region then [.configurationWritePersisted .region] else []) ++
    (s.nv.spentWrites.map fun e => .configurationWritePersisted (.cell e.1))

/-- The door timers that run out. -/
def dueDoors (s : State) : List Instr :=
  (s.doors.filter fun e => runsOut e.2.timer).flatMap fun e =>
    match e.2.state with
    | .released => [.unlockTimeExpiry e.1]
    | .open => [.openTimeExpiry e.1]
    | .pairWait => [.pairWindowExpiry e.1]
    | _ => []

/-- What a tick brings to a group. -/
def dueGroup (s : State) (g : Nat) : List Instr :=
  let v := s.group g
  match v.state with
  | .countdown => if v.remaining.getD 0 ≤ 1 then [.countdownEnd g] else [.countdownTick g]
  | .sealWait => if runsOut v.sealTimer then [.sealTimerExpiry g] else []
  | .releasing => if runsOut v.pulse then [.pulseTimerExpiry g] else []
  | _ => []

/-- The alarm timers that run out. -/
def dueAlarms (s : State) : List Instr :=
  s.alarms.records.flatMap fun r =>
    (if runsOut r.escalation then [.escalationTimerExpiry r.number] else []) ++
      (if runsOut r.silence then [.silenceTimerExpiry r.number] else [])

/-- What a tick brings to the scrubber (R71, R82). -/
def dueScrubber (s : State) : List Instr :=
  let v := s.store.scrubber
  if v.waiting then (if v.waited + 1 ≥ Config.forcedTurnWait && !v.forced then [.forcedTurn] else [])
  else if runsOut v.interval then [.scrubIntervalExpiry] else []

/-- The fire link falls silent (R198). -/
def dueLink (s : State) : List Instr :=
  if s.ports.linkPresent && s.ports.silence + 1 ≥ Config.linkSilence then [.fireLinkLost] else []

/-- A minute step is due (R8). -/
def minuteDue (s : State) : Bool := s.clock.minuteTimer + 1 ≥ Config.minuteTicks

/-- The point in the week that the tick reaches. -/
def pointReached (s : State) : Nat × Nat :=
  if minuteDue s then (s.minuteAfter 1, 0) else (s.clock.timeOfWeek, s.clock.minuteTimer + 1)

/-- The check-in points that the tick reaches (R97). -/
def dueCheckIns (s : State) : List Instr :=
  s.roster.flatMap fun e =>
    match e.2.deadline with
    | some d =>
      if (d.minute, d.phase) = pointReached s then
        match d.stage with
        | .due => [.checkInDeadlineReached e.1]
        | .grace => [.graceEnd e.1]
        | .missed => []
      else []
    | none => []

/-- The commands that a tick makes due; the check-in points follow the minute step that reaches their minute. -/
def dueCommands (s : State) : List Instr :=
  dueWrites s ++ dueDoors s ++ allGroups.flatMap (dueGroup s) ++ dueAlarms s ++ dueScrubber s ++ dueLink s ++
    (if minuteDue s then [.minuteStep] else []) ++ dueCheckIns s

/-- One tick. While power is off or the reset pin is asserted nothing counts. -/
def tick (s : State) : State :=
  if s.serving then { countTimers s with pending := s.pending ++ dueCommands s } else s

end Sys2Proof.Machine
end

