-- ==== Sys2Proof/Machine/Dispatch.lean ====
section
/-! DEFINITION. The meaning of each command: one arm for each constructor of `Instr`. -/

namespace Sys2Proof.Machine

def exec (i : Instr) (s : State) : Host.Outcome State Fault Refusal :=
  match i with
  | .readStatus h => Sys2Proof.Machine.execReadStatus h s
  | .readZone h zone => Sys2Proof.Machine.execReadZone h zone s
  | .readDoor h door => Sys2Proof.Machine.execReadDoor h door s
  | .readGroup h group => Sys2Proof.Machine.execReadGroup h group s
  | .readRoster h first filter => Sys2Proof.Machine.execReadRoster h first filter s
  | .readAlarmQueue h first => Sys2Proof.Machine.execReadAlarmQueue h first s
  | .readPoint h point => Sys2Proof.Machine.execReadPoint h point s
  | .readCredential h slot => Sys2Proof.Machine.execReadCredential h slot s
  | .setNoticeFilter h categories => Sys2Proof.Machine.execSetNoticeFilter h categories s
  | .writeCredential h slot record => Sys2Proof.Machine.execWriteCredential h slot record s
  | .eraseCredential h slot => Sys2Proof.Machine.execEraseCredential h slot s
  | .modifyCredential h slot changes => Sys2Proof.Machine.execModifyCredential h slot changes s
  | .remoteRelease h door => Sys2Proof.Machine.execRemoteRelease h door s
  | .pointSet h point => Sys2Proof.Machine.execPointSet h point s
  | .pointClear h point => Sys2Proof.Machine.execPointClear h point s
  | .pointToggle h point => Sys2Proof.Machine.execPointToggle h point s
  | .readAudit h => Sys2Proof.Machine.execReadAudit h s
  | .confirmFire h group => Sys2Proof.Machine.execConfirmFire h group s
  | .panelHold h group => Sys2Proof.Machine.execPanelHold h group s
  | .panelResume h group => Sys2Proof.Machine.execPanelResume h group s
  | .overrideHold h group => Sys2Proof.Machine.execOverrideHold h group s
  | .lockout h group => Sys2Proof.Machine.execLockout h group s
  | .liftLockout h group => Sys2Proof.Machine.execLiftLockout h group s
  | .declareClear h group => Sys2Proof.Machine.execDeclareClear h group s
  | .rearm h group => Sys2Proof.Machine.execRearm h group s
  | .setAccessWindow h low high => Sys2Proof.Machine.execSetAccessWindow h low high s
  | .setTime h minute => Sys2Proof.Machine.execSetTime h minute s
  | .setClosureDay h form => Sys2Proof.Machine.execSetClosureDay h form s
  | .lockdownZone h zone => Sys2Proof.Machine.execLockdownZone h zone s
  | .liftLockdown h zone => Sys2Proof.Machine.execLiftLockdown h zone s
  | .grantEscort h zone escort duration entrants => Sys2Proof.Machine.execGrantEscort h zone escort duration entrants s
  | .revokeGrant h grant => Sys2Proof.Machine.execRevokeGrant h grant s
  | .moveRosterEntry h slot zone => Sys2Proof.Machine.execMoveRosterEntry h slot zone s
  | .removeRosterEntry h slot => Sys2Proof.Machine.execRemoveRosterEntry h slot s
  | .confirmZoneClear h zone => Sys2Proof.Machine.execConfirmZoneClear h zone s
  | .acknowledgeAlarm h number => Sys2Proof.Machine.execAcknowledgeAlarm h number s
  | .clearAlarm h number => Sys2Proof.Machine.execClearAlarm h number s
  | .startLoopTest h node window => Sys2Proof.Machine.execStartLoopTest h node window s
  | .stopLoopTest h => Sys2Proof.Machine.execStopLoopTest h s
  | .readLoopTest h => Sys2Proof.Machine.execReadLoopTest h s
  | .overrideSet h point value => Sys2Proof.Machine.execOverrideSet h point value s
  | .overrideClear h point => Sys2Proof.Machine.execOverrideClear h point s
  | .writeConfigurationRecord h index record => Sys2Proof.Machine.execWriteConfigurationRecord h index record s
  | .readConfigurationRecord h kind index => Sys2Proof.Machine.execReadConfigurationRecord h kind index s
  | .restart h => Sys2Proof.Machine.execRestart h s
  | .unknownRequest h code => Sys2Proof.Machine.execUnknownRequest h code s
  | .nonRequestFrame port => Sys2Proof.Machine.execNonRequestFrame port s
  | .discardedFrame port bytes => Sys2Proof.Machine.execDiscardedFrame port bytes s
  | .frameGap port => Sys2Proof.Machine.execFrameGap port s
  | .receiveCharacterFault port => Sys2Proof.Machine.execReceiveCharacterFault port s
  | .lineBreak port => Sys2Proof.Machine.execLineBreak port s
  | .transmitterFrameEnd port => Sys2Proof.Machine.execTransmitterFrameEnd port s
  | .fireLinkLost => Sys2Proof.Machine.execFireLinkLost s
  | .powerOn load => Sys2Proof.Machine.execPowerOn load s
  | .resetAsserted left => Sys2Proof.Machine.execResetAsserted left s
  | .powerLoss left => Sys2Proof.Machine.execPowerLoss left s
  | .configurationWritePersisted write => Sys2Proof.Machine.execConfigurationWritePersisted write s
  | .minuteStep => Sys2Proof.Machine.execMinuteStep s
  | .grantExpiry grant => Sys2Proof.Machine.execGrantExpiry grant s
  | .checkInDeadlineReached slot => Sys2Proof.Machine.execCheckInDeadlineReached slot s
  | .graceEnd slot => Sys2Proof.Machine.execGraceEnd slot s
  | .unlockTimeExpiry door => Sys2Proof.Machine.execUnlockTimeExpiry door s
  | .openTimeExpiry door => Sys2Proof.Machine.execOpenTimeExpiry door s
  | .pairWindowExpiry door => Sys2Proof.Machine.execPairWindowExpiry door s
  | .countdownTick group => Sys2Proof.Machine.execCountdownTick group s
  | .countdownEnd group => Sys2Proof.Machine.execCountdownEnd group s
  | .sealTimerExpiry group => Sys2Proof.Machine.execSealTimerExpiry group s
  | .pulseTimerExpiry group => Sys2Proof.Machine.execPulseTimerExpiry group s
  | .escalationTimerExpiry number => Sys2Proof.Machine.execEscalationTimerExpiry number s
  | .silenceTimerExpiry number => Sys2Proof.Machine.execSilenceTimerExpiry number s
  | .scrubIntervalExpiry => Sys2Proof.Machine.execScrubIntervalExpiry s
  | .forcedTurn => Sys2Proof.Machine.execForcedTurn s
  | .storeGrant => Sys2Proof.Machine.execStoreGrant s
  | .credentialLookupComplete check => Sys2Proof.Machine.execCredentialLookupComplete check s
  | .pendantLookupComplete check => Sys2Proof.Machine.execPendantLookupComplete check s
  | .readCredentialComplete check => Sys2Proof.Machine.execReadCredentialComplete check s
  | .writeCredentialComplete => Sys2Proof.Machine.execWriteCredentialComplete s
  | .eraseCredentialComplete => Sys2Proof.Machine.execEraseCredentialComplete s
  | .modifyCredentialComplete check => Sys2Proof.Machine.execModifyCredentialComplete check s
  | .scrubStepComplete check => Sys2Proof.Machine.execScrubStepComplete check s
  | .goodReply reply => Sys2Proof.Machine.execGoodReply reply s
  | .replyTimeout => Sys2Proof.Machine.execReplyTimeout s
  | .faultyCharacter fault => Sys2Proof.Machine.execFaultyCharacter fault s
  | .retry => Sys2Proof.Machine.execRetry s
  | .loopTestWindowEnd outcome => Sys2Proof.Machine.execLoopTestWindowEnd outcome s
  | .attemptFailsOnReply fault => Sys2Proof.Machine.execAttemptFailsOnReply fault s

end Sys2Proof.Machine
end

