-- ==== Sys2Proof/Safety.lean ====
section
/-! DEFINITION. The words in which claims about the part are made: a request that is taken, its reply, the ports at
rest, and what holds of the part in every state that a run reaches. -/

namespace Sys2Proof.Machine

/-! ### Requests -/

/-- The head and the code of a command that is a REQUEST frame of a defined code. -/
def requestOf : Instr → Option (Head × Nat)
  | .readStatus h => some (h, Code.readStatus)
  | .readZone h _ => some (h, Code.readZone)
  | .readDoor h _ => some (h, Code.readDoor)
  | .readGroup h _ => some (h, Code.readGroup)
  | .readRoster h _ _ => some (h, Code.readRoster)
  | .readAlarmQueue h _ => some (h, Code.readAlarmQueue)
  | .readPoint h _ => some (h, Code.readPoint)
  | .readCredential h _ => some (h, Code.readCredential)
  | .setNoticeFilter h _ => some (h, Code.setNoticeFilter)
  | .writeCredential h _ _ => some (h, Code.writeCredential)
  | .eraseCredential h _ => some (h, Code.eraseCredential)
  | .modifyCredential h _ _ => some (h, Code.modifyCredential)
  | .remoteRelease h _ => some (h, Code.remoteRelease)
  | .pointSet h _ => some (h, Code.pointSet)
  | .pointClear h _ => some (h, Code.pointClear)
  | .pointToggle h _ => some (h, Code.pointToggle)
  | .readAudit h => some (h, Code.readAudit)
  | .confirmFire h _ => some (h, Code.confirmFire)
  | .panelHold h _ => some (h, Code.panelHold)
  | .panelResume h _ => some (h, Code.panelResume)
  | .overrideHold h _ => some (h, Code.overrideHold)
  | .lockout h _ => some (h, Code.lockout)
  | .liftLockout h _ => some (h, Code.liftLockout)
  | .declareClear h _ => some (h, Code.declareClear)
  | .rearm h _ => some (h, Code.rearm)
  | .setAccessWindow h _ _ => some (h, Code.setAccessWindow)
  | .setTime h _ => some (h, Code.setTime)
  | .setClosureDay h _ => some (h, Code.setClosureDay)
  | .lockdownZone h _ => some (h, Code.lockdownZone)
  | .liftLockdown h _ => some (h, Code.liftLockdown)
  | .grantEscort h _ _ _ _ => some (h, Code.grantEscort)
  | .revokeGrant h _ => some (h, Code.revokeGrant)
  | .moveRosterEntry h _ _ => some (h, Code.moveRosterEntry)
  | .removeRosterEntry h _ => some (h, Code.removeRosterEntry)
  | .confirmZoneClear h _ => some (h, Code.confirmZoneClear)
  | .acknowledgeAlarm h _ => some (h, Code.acknowledgeAlarm)
  | .clearAlarm h _ => some (h, Code.clearAlarm)
  | .startLoopTest h _ _ => some (h, Code.startLoopTest)
  | .stopLoopTest h => some (h, Code.stopLoopTest)
  | .readLoopTest h => some (h, Code.readLoopTest)
  | .overrideSet h _ _ => some (h, Code.overrideSet)
  | .overrideClear h _ => some (h, Code.overrideClear)
  | .writeConfigurationRecord h _ _ => some (h, Code.writeConfigurationRecord)
  | .readConfigurationRecord h _ _ => some (h, Code.readConfigurationRecord)
  | .restart h => some (h, Code.restart)
  | .unknownRequest _ _ => none
  | .nonRequestFrame _ => none
  | .discardedFrame _ _ => none
  | .frameGap _ => none
  | .receiveCharacterFault _ => none
  | .lineBreak _ => none
  | .transmitterFrameEnd _ => none
  | .fireLinkLost => none
  | .powerOn _ => none
  | .resetAsserted _ => none
  | .powerLoss _ => none
  | .configurationWritePersisted _ => none
  | .minuteStep => none
  | .grantExpiry _ => none
  | .checkInDeadlineReached _ => none
  | .graceEnd _ => none
  | .unlockTimeExpiry _ => none
  | .openTimeExpiry _ => none
  | .pairWindowExpiry _ => none
  | .countdownTick _ => none
  | .countdownEnd _ => none
  | .sealTimerExpiry _ => none
  | .pulseTimerExpiry _ => none
  | .escalationTimerExpiry _ => none
  | .silenceTimerExpiry _ => none
  | .scrubIntervalExpiry => none
  | .forcedTurn => none
  | .storeGrant => none
  | .credentialLookupComplete _ => none
  | .pendantLookupComplete _ => none
  | .readCredentialComplete _ => none
  | .writeCredentialComplete => none
  | .eraseCredentialComplete => none
  | .modifyCredentialComplete _ => none
  | .scrubStepComplete _ => none
  | .goodReply _ => none
  | .replyTimeout => none
  | .faultyCharacter _ => none
  | .retry => none
  | .loopTestWindowEnd _ => none
  | .attemptFailsOnReply _ => none

/-- The request passes the checks 1 to 4 of R188: the part serves, the frame has begun in HUNT (R187), no request is in
flight on its port, its code is within the port's role, and its parameters have their length. -/
structure Takes (s : State) (h : Head) (code : Nat) : Prop where
  serving : s.serving = true
  hunt : (s.port h.port).receive = .hunt
  free : (s.port h.port).inFlight = none
  role : roleAllows h.port code = true
  sized : h.sized = true

/-- The reply of a request is being sent or waits for the transmitter (R189, R190). -/
def Replied (t : State) (h : Head) (code : Nat) (r : Result) (results : List Val) : Prop :=
  (t.port h.port).sending = some (.reply ⟨h.tag, r, code, results⟩) ∨
    (⟨h.tag, r, code, results⟩ : Reply) ∈ (t.port h.port).replies

/-- The reply of a request in flight on a port is being sent or waits; with its reply suppressed there is none. -/
def Answered (t : State) (p : Port) (f : InFlight) (r : Result) (results : List Val) : Prop :=
  f.suppressed = true ∨ (t.port p).sending = some (.reply ⟨f.tag, r, f.code, results⟩) ∨
    (⟨f.tag, r, f.code, results⟩ : Reply) ∈ (t.port p).replies

/-- A request that is answered as it is taken and changes nothing beyond the ports. -/
def AnswersOnly (c : Instr) (s : State) (h : Head) (code : Nat) (r : Result) (results : List Val) : Prop :=
  ∃ t, exec c s = .next t ∧ Replied t h code r results ∧ (t.port h.port).inFlight = none ∧ { t with ports := s.ports } = s

/-- The port operation that a store request asks for, where its parameters are in range (R75, R76). -/
def storeRequest : Instr → Option (Head × Nat × PortOp)
  | .readCredential h slot => if slot ≤ 511 then some (h, Code.readCredential, .read slot) else none
  | .writeCredential h slot record =>
    match formCredential record with
    | some c => if slot ≤ 511 then some (h, Code.writeCredential, .write slot c) else none
    | none => none
  | .eraseCredential h slot => if slot ≤ 511 then some (h, Code.eraseCredential, .erase slot) else none
  | .modifyCredential h slot changes =>
    if slot ≤ 511 ∧ 1 ≤ changes.length ∧ changes.length ≤ 8 ∧ (applyChanges changes Credential.sample).isSome = true then
      some (h, Code.modifyCredential, .modify slot changes)
    else none
  | _ => none

/-- The reader response of a side. -/
def DoorVol.resp (v : DoorVol) : Side → Response
  | .a => v.respA
  | .b => v.respB

/-- A Write Configuration Record that is refused: it ends at its taking and changes nothing (R202). -/
def WriteRefused (h : Head) (index : Nat) (r : RawRecord) (s : State) (why : Result) : Prop :=
  AnswersOnly (.writeConfigurationRecord h index r) s h Code.writeConfigurationRecord why []

/-- A Write Configuration Record that is taken: it is in flight with its result until it has persisted (R202), and the
state after its taking is as said. -/
def WriteTaken (h : Head) (index : Nat) (r : RawRecord) (s : State) (clamped : Prop) [Decidable clamped] (rates : Bool)
    (after : State → Prop) : Prop :=
  ∃ t, exec (.writeConfigurationRecord h index r) s = .next t ∧
    (t.port h.port).inFlight = some ⟨h.tag, Code.writeConfigurationRecord, false,
      .region (if clamped then .doneClamped else .done) rates⟩ ∧ after t

/-- A frame that arrives on the port restores no lost link (R198). -/
def LinkQuiet (s : State) (p : Port) : Prop := p = .fire → s.ports.linkPresent = true

/-! ### The ports at rest (R190, R195) -/

/-- A port at rest: an idle transmitter has nothing waiting for it, and a due rate is kept back only by a frame being sent
or by a frame being assembled. -/
def PortState.AtRest (q : PortState) : Prop :=
  (q.sending = none → q.busy = [] ∧ q.replies = [] ∧ q.refused = [] ∧ q.notices = []) ∧
    (q.rateDue ≠ none → q.sending ≠ none ∨ q.receive ≠ .hunt)

/-- Every port is at rest. -/
def Settled (s : State) : Prop := ∀ p, (s.port p).AtRest

/-- The bounds of R190 and R192: at most 4 pending BUSY replies and at most 32 queued notices on each port. -/
def PortsBounded (s : State) : Prop :=
  ∀ p, (s.port p).busy.length ≤ Config.busyMax ∧ (s.port p).notices.length ≤ Config.noticeMax

/-! ### Polls (R160, R166, R170) -/

/-- A POLL of an ONLINE node is in flight and its reply is awaited; the node has the record that it had when the exchange
began, its circuits are read by that record (R153), and the first full pass is complete. -/
structure Polled (s : State) (ex : Exchange) : Prop where
  serving : s.serving = true
  current : s.loop.exchange = some ex
  poll : ex.command = .poll
  awake : ex.quiet = false
  live : ex.stale = false
  record : ex.record = s.config.node ex.node
  settled : (s.node ex.node).readBy = none
  online : (s.node ex.node).sup = .online
  passed : s.loop.passDone = true

/-! ### The urgent queue and the audit log (R102, R165) -/

/-- At most 16 urgent entries, at most one for a node (R165). -/
def UrgentBounded (s : State) : Prop := s.loop.urgent.length ≤ 16 ∧ s.loop.urgent.Nodup

/-- From one state to another the audit log has lost `k` of its oldest records and taken others at its end; the wrapped
mark is set where it was or where a record was lost, which only a full log does (R102). -/
def AuditGrows (s t : State) : Prop :=
  ∃ k more, t.afterHours.audit = s.afterHours.audit.drop k ++ more ∧ t.afterHours.audit.length ≤ 256 ∧
    t.afterHours.wrapped = (s.afterHours.wrapped || decide (0 < k)) ∧ (0 < k → t.afterHours.audit.length = 256)

/-! ### The alarm queue (R135, R136, R145, R148) -/

/-- The general alarm line is driven exactly while a RAISED record stands at level 3. -/
def AlarmLineHonest (s : State) : Prop := s.alarms.line = lineWanted s

/-- At most 32 records in priority order, no two of one number or of one key, their numbers and the next number within
1..255, none but those of pendants unlocated, and the line as they say. -/
structure AlarmsSound (s : State) : Prop where
  line : AlarmLineHonest s
  bound : s.alarms.records.length ≤ 32
  numbers : (s.alarms.records.map (·.number)).Nodup
  range : ∀ r ∈ s.alarms.records, 1 ≤ r.number ∧ r.number ≤ 255
  next : 1 ≤ s.alarms.next ∧ s.alarms.next ≤ 255
  keys : (s.alarms.records.map (·.key)).Nodup
  located : ∀ r ∈ s.alarms.records, r.unlocated = true → r.key.kind = .pendant
  order : (s.alarms.records.map (·.key.kind.priority)).Pairwise (· ≤ ·)

/-! ### Release lines and countdowns (R105, R107, R114, R124) -/

/-- The records of the groups as R105 keeps them: each release pair is named by one group, and Rmin is at most Dmax. A
group beyond 0..3 is read at its default, whose pair is its own number. -/
def Records.GroupsSound (c : Records) : Prop :=
  (∀ g k, (c.group g).pair = (c.group k).pair → g = k) ∧ (∀ g, 4 ≤ g → (c.group g).pair = g) ∧
    ∀ g, (c.group g).rmin ≤ (c.group g).dmax

/-- The records in working memory and in the configuration region have sound groups. -/
def GroupsSound (s : State) : Prop := s.config.GroupsSound ∧ ∀ r, s.nv.region = some r → r.GroupsSound

/-- The lines of a pair are driven only while the group whose record names the pair is RELEASING (R124). -/
def LinesHonest (s : State) : Prop :=
  ∀ pair, s.lineDriven pair = true → ∃ g, (s.group g).state = .releasing ∧ (s.config.group g).pair = pair

/-- The states in which remaining and elapsed are present (R107). -/
def GroupState.timed : GroupState → Bool
  | .countdown | .held | .sealWait | .releasing => true
  | _ => false

/-- In each of groups 0..3, remaining and elapsed are present exactly in those states, and remaining is at most Dmax
(R107, R114). -/
def CountdownSound (s : State) : Prop :=
  ∀ g, g ≤ 3 → ((s.group g).remaining.isSome = (s.group g).state.timed) ∧ ((s.group g).elapsed.isSome = (s.group g).state.timed) ∧
    ∀ r, (s.group g).remaining = some r → r ≤ (s.config.group g).dmax

/-! ### The roster and the grants (R16 to R18, R88) -/

/-- The fields of a slot are those of its state (R16). -/
def Slot.Fields (v : Slot) : Prop :=
  match v.state with
  | .free => v = Slot.free
  | .pendingEntry => v.zone = none ∧ v.pendZone.isSome ∧ v.pendDoor.isSome ∧ v.entered = none ∧ v.deadline = none
  | .present => v.zone.isSome ∧ v.pendZone = none ∧ v.pendDoor = none ∧ v.entered.isSome
  | .presentMoving => v.zone.isSome ∧ v.pendZone.isSome ∧ v.pendDoor.isSome ∧ v.entered.isSome

/-- The table of the roster has one entry for a slot that is not FREE and no slot above 127, each slot has the fields of
its state (R16) with the names of tracked zones from 1 to 15, a credential number is held by at most one slot (R17), and
the committed count of a tracked zone is within its capacity (R18). -/
structure RosterSound (s : State) : Prop where
  table : Tab.wf (fun _ => Slot.free) s.roster = true
  slots : ∀ i, 127 < i → s.slot i = Slot.free
  fields : ∀ i, (s.slot i).Fields
  zones : ∀ i z, (s.slot i).zone = some z ∨ (s.slot i).pendZone = some z ∧ z ≠ 0 → 1 ≤ z ∧ z ≤ 15 ∧ tracked s z = true
  holders : ∀ i j, (s.slot i).state ≠ .free → (s.slot j).state ≠ .free →
    (s.slot i).credential = (s.slot j).credential → i = j
  capacity : ∀ z, tracked s z = true → committed s z ≤ (s.config.zone z).capacity

/-- No zone above 15 is tracked by the records of working memory or of the configuration region (R1). -/
def ZonesSound (s : State) : Prop :=
  ∀ z, 15 < z → (s.config.zone z).tracked = false ∧ ∀ r, s.nv.region = some r → (r.zone z).tracked = false

/-- While the configuration is INVALID no exchange is made, no presentation is decided, and the roster is empty (R205). -/
def InvalidQuiet (s : State) : Prop :=
  s.configValid = false →
    s.loop.exchange = none ∧ (∀ d, (s.door d).decA = none ∧ (s.door d).decB = none) ∧ ∀ i, s.slot i = Slot.free

/-- The entrant count of every grant is at most its maximum (R88). -/
def GrantsWithin (s : State) : Prop := ∀ g, (s.grant g).count ≤ (s.grant g).maximum

/-- A reserved slot after its cancel (R25, R88): a slot that stays has the grant number it had before. -/
def slotGivenBack (s : State) (i : Nat) : Slot :=
  let v := (s.slot i).cancelled
  if v.state = .free then v else { v with grant := ((s.place i).map (·.former)).getD v.grant }

/-- A reserved slot after its commit into a zone (R24, R91, R96): PRESENT there with the grant number that its passage
took, marked while the zone is after-hours with a deadline from now, and without either where it had or was to have a mark
and the zone is in hours. -/
def slotArrived (s : State) (i z : Nat) : Slot :=
  let w := s.slot i
  let due : Option Deadline := if (s.config.zone z).interval = 0 then none
    else some ⟨(s.clock.timeOfWeek + (s.config.zone z).interval) % 10080, s.clock.minuteTimer, .due⟩
  { w with
    state := .present, zone := some z, pendZone := none, pendDoor := none, entered := some s.clock.timeOfWeek
    grant := (s.place i).bind (·.taken), mark := (s.zone z).afterHours
    deadline := if (s.zone z).afterHours then due
      else if w.mark ∨ (s.place i).any (·.afterHours) then none else w.deadline }

/-! ### The onset of egress-only (R57, R130) -/

/-- The zones on which egress-only begins between two states: those of each group that goes from a state without it to
one with it (R130). -/
def zonesSealed (s t : State) : List Nat :=
  ((List.range 4).filter fun g => !(s.group g).state.egressOnly && (t.group g).state.egressOnly).flatMap (groupZones s)

/-- A release that an onset on these zones withdraws: for entry into one of them, or a remote one on a door with a side in
one. -/
def releaseWithdrawn (s : State) (zones : List Nat) (d : Nat) : Bool :=
  let v := s.door d
  decide (v.state = .released) && zones.any fun z =>
    decide (v.kind = some .entry ∧ v.target = some z) ||
      decide (v.kind = some .remote ∧ ((s.config.door d).sideA = z ∨ (s.config.door d).sideB = z))

/-- What the onsets of egress-only between two states make of the doors and of the slots that they hold: each release that
is withdrawn goes SECURE with its reservation cancelled, each pair that waits for a zone of an onset is dropped with SEALED
at its side, and every other door and slot stays. -/
def OnsetDealtWith (s t : State) : Prop :=
  let zones := zonesSealed s t
  (∀ d, d ≤ 31 → t.door d =
    let v := s.door d
    if releaseWithdrawn s zones d = true then v.toSecure
    else match v.state, v.pair with
      | .pairWait, some p => if p.target ∈ zones then v.toSecure.setResp p.side (.refused .sealed) else v
      | _, _ => v) ∧
  ∀ i, i ≤ 127 → t.slot i = match (s.slot i).pendDoor with
    | some d => if d ≤ 31 ∧ releaseWithdrawn s zones d = true then slotGivenBack s i else s.slot i
    | none => s.slot i

/-! ### The credential store (R68) -/

/-- No two slots in use hold the same credential number, and a Write that holds the store gives its slot a number that
no other slot in use holds. -/
def NumbersUnique (s : State) : Prop :=
  (∀ i j n, (s.store.entry i).cond = .inUse → (s.store.entry j).cond = .inUse →
    (s.store.entry i).number = some n → (s.store.entry j).number = some n → i = j) ∧
  ∀ p i c, s.store.op = some (.port p (.write i c)) →
    ∀ j, j ≠ i → (s.store.entry j).cond = .inUse → (s.store.entry j).number ≠ some c.number

/-! ### The load of the credential store (R84) -/

/-- A slot that the load enters as DAMAGED with unknown identity: it carries the damaged marker, or its check finds a
double error, as it does of contents that an interrupted write has left so (R83). -/
def loadSpoils (cells : Tab Cell) (load : LoadReport) (i : Nat) : Bool :=
  let c := Tab.get Cell.fresh cells i
  c.marker || decide (c.contents = .unreadable) || decide (Tab.get .clean load.checks i = .double)

/-- A slot whose record the load reads, clean or corrected. -/
def loadReads (cells : Tab Cell) (load : LoadReport) (i : Nat) (c : Credential) : Prop :=
  loadSpoils cells load i = false ∧ (Tab.get Cell.fresh cells i).contents = .record c

/-- A record whose number, or whose pendant other than 0, a lower slot holds of those that the load reads. -/
def loadRepeats (cells : Tab Cell) (load : LoadReport) (i : Nat) (c : Credential) : Prop :=
  ∃ j k, j < i ∧ loadReads cells load j k ∧ (k.number = c.number ∨ k.pendant = c.pendant ∧ c.pendant ≠ 0)

/-- A slot whose single error the load corrects and counts. -/
def loadCorrects (cells : Tab Cell) (load : LoadReport) (i : Nat) : Bool :=
  let c := Tab.get Cell.fresh cells i
  !c.marker && !decide (c.contents = .unreadable) && decide (Tab.get .clean load.checks i = .single)

end Sys2Proof.Machine
end

