-- ==== Sys2Proof/WellFormed.lean ====
section
/-! DEFINITION. Which commands the world can send: every value within the width that carries it (R200), every list
within what one frame or one reply holds (R159, R187, R200), and every place named one that exists. A command that is
not well formed still has a meaning; no frame and no event brings it. -/

namespace Sys2Proof

/-- The value fits one, two or three bytes (R200). -/
def fits8 (n : Nat) : Bool := n < 256
def fits16 (n : Nat) : Bool := n < 65536
def fits24 (n : Nat) : Bool := n < 16777216

/-- A tag is one byte. -/
def Head.wf (h : Head) : Bool := fits8 h.tag

def RawCredential.wf (r : RawCredential) : Bool := fits24 r.number && fits8 r.cls && fits8 r.right && fits16 r.pendant

def FieldChange.wf : FieldChange → Bool
  | .number n => fits24 n
  | .cls k => fits8 k
  | .perms _ => true
  | .right k => fits8 k
  | .pendant n => fits16 n
  | .enabled _ => true
  | .exempt _ => true
  | .guarded _ => true
  | .undefined f => 8 ≤ f && fits8 f

def RawZone.wf (r : RawZone) : Bool :=
  fits8 r.cls && fits8 r.schedule && r.group.all fits8 && fits8 r.capacity && fits16 r.interval && fits16 r.grace

def RawWindow.wf (r : RawWindow) : Bool := fits16 r.start && fits16 r.stop

def RawDoor.wf (r : RawDoor) : Bool :=
  fits8 r.sideA && fits8 r.sideB && fits8 r.cls && fits8 r.node && fits8 r.passback && fits16 r.u && fits16 r.h &&
    fits16 r.w && fits8 r.failMode

/-- A node record carries 16 circuit functions (R153). -/
def RawNode.wf (r : RawNode) : Bool :=
  fits8 r.type && fits8 r.zone && r.functions.length == 16 && r.functions.all fits8

def RawPoint.wf (r : RawPoint) : Bool := fits16 r.point && fits8 r.mark

def RawGroup.wf (r : RawGroup) : Bool :=
  fits16 r.b && fits16 r.a && fits8 r.c && fits16 r.dmax && fits16 r.rmin && fits16 r.bm && fits16 r.s && fits16 r.p &&
    fits8 r.pair && fits8 r.detectors.length && r.detectors.all RawPoint.wf && fits8 r.warnings.length &&
    r.warnings.all RawPoint.wf

def RawTiming.wf (r : RawTiming) : Bool :=
  fits8 r.tr && fits8 r.r && fits8 r.l && fits8 r.g && fits8 r.n && fits8 r.k

def Rate.wf (r : Rate) : Bool := fits8 r.n && fits8 r.k

/-- A schedule has four windows (R5); the kinds 0 to 9 are defined (section 11.1). -/
def RawRecord.wf : RawRecord → Bool
  | .zone r => r.wf
  | .schedule ws => ws.length == 4 && ws.all RawWindow.wf
  | .door r => r.wf
  | .node r => r.wf
  | .group r => r.wf
  | .pollList ns => fits8 ns.length && ns.all fits8
  | .loopTiming r => r.wf
  | .partTimers a b => fits16 a && fits16 b
  | .portRates a b c => a.wf && b.wf && c.wf
  | .accessWindow a b => fits16 a && fits16 b
  | .undefined k => 10 ≤ k && fits8 k

/-- The cells named are cells that exist. -/
def Interrupted.wf (i : Interrupted) : Bool := i.cells.all fun e => e.1 < 4

/-- The slots named are slots that exist. -/
def LoadReport.wf (r : LoadReport) : Bool := r.checks.all fun e => e.1 < 512

def NvWrite.wf : NvWrite → Bool
  | .region => true
  | .cell g => g < 4

def Presentation.wf (e : Presentation) : Bool := fits24 e.credential

/-- A reply has at most 14 data characters, of which the readings take 4: 2 presentations, or 5 pendant reports. -/
def LoopEvents.wf : LoopEvents → Bool
  | .presentations es => es.length ≤ 2 && es.all Presentation.wf
  | .reports ps => ps.length ≤ 5 && ps.all fits16

/-- A READY reply to a POLL carries 16 readings (R159). -/
def LoopReply.wf : LoopReply → Bool
  | .ready _ rs ev => rs.length == 16 && ev.wf
  | .echo _ => true
  | .busy => true

/-- A request code is one byte, and an unknown request has a code that no other request has. -/
def codeUndefined (code : Nat) : Bool :=
  fits8 code && !(0x01 ≤ code && code ≤ 0x09) && !(0x10 ≤ code && code ≤ 0x17) && !(0x20 ≤ code && code ≤ 0x27) &&
    !(0x30 ≤ code && code ≤ 0x43)

/-- The well-formed commands. -/
def Instr.wf : Instr → Bool
  | .readStatus h => h.wf
  | .readZone h zone => h.wf && fits8 zone
  | .readDoor h door => h.wf && fits8 door
  | .readGroup h group => h.wf && fits8 group
  | .readRoster h first filter => h.wf && fits8 first && fits8 filter
  | .readAlarmQueue h first => h.wf && fits8 first
  | .readPoint h point => h.wf && fits16 point
  | .readCredential h slot => h.wf && fits16 slot
  | .setNoticeFilter h _ => h.wf
  | .writeCredential h slot record => h.wf && fits16 slot && record.wf
  | .eraseCredential h slot => h.wf && fits16 slot
  | .modifyCredential h slot changes => h.wf && fits16 slot && fits8 changes.length && changes.all FieldChange.wf
  | .remoteRelease h door => h.wf && fits8 door
  | .pointSet h point => h.wf && fits16 point
  | .pointClear h point => h.wf && fits16 point
  | .pointToggle h point => h.wf && fits16 point
  | .readAudit h => h.wf
  | .confirmFire h group => h.wf && fits8 group
  | .panelHold h group => h.wf && fits8 group
  | .panelResume h group => h.wf && fits8 group
  | .overrideHold h group => h.wf && fits8 group
  | .lockout h group => h.wf && fits8 group
  | .liftLockout h group => h.wf && fits8 group
  | .declareClear h group => h.wf && fits8 group
  | .rearm h group => h.wf && fits8 group
  | .setAccessWindow h low high => h.wf && fits16 low && fits16 high
  | .setTime h minute => h.wf && fits16 minute
  | .setClosureDay h _ => h.wf
  | .lockdownZone h zone => h.wf && fits8 zone
  | .liftLockdown h zone => h.wf && fits8 zone
  | .grantEscort h zone escort duration entrants =>
    h.wf && fits8 zone && fits24 escort && fits16 duration && fits8 entrants
  | .revokeGrant h grant => h.wf && fits8 grant
  | .moveRosterEntry h slot zone => h.wf && fits8 slot && fits8 zone
  | .removeRosterEntry h slot => h.wf && fits8 slot
  | .confirmZoneClear h zone => h.wf && fits8 zone
  | .acknowledgeAlarm h number => h.wf && fits8 number
  | .clearAlarm h number => h.wf && fits8 number
  | .startLoopTest h node window => h.wf && fits8 node && fits16 window
  | .stopLoopTest h => h.wf
  | .readLoopTest h => h.wf
  | .overrideSet h point _ => h.wf && fits16 point
  | .overrideClear h point => h.wf && fits16 point
  | .writeConfigurationRecord h index record => h.wf && fits8 index && record.wf
  | .readConfigurationRecord h kind index => h.wf && fits8 kind && fits8 index
  | .restart h => h.wf
  | .unknownRequest h code => h.wf && codeUndefined code
  | .nonRequestFrame _ => true
  | .discardedFrame _ _ => true
  | .frameGap _ => true
  | .receiveCharacterFault _ => true
  | .lineBreak _ => true
  | .transmitterFrameEnd _ => true
  | .fireLinkLost => true
  | .powerOn load => load.wf
  | .resetAsserted left => left.wf
  | .powerLoss left => left.wf
  | .configurationWritePersisted write => write.wf
  | .minuteStep => true
  | .grantExpiry grant => 1 ≤ grant && grant ≤ 16
  | .checkInDeadlineReached slot => slot < 128
  | .graceEnd slot => slot < 128
  | .unlockTimeExpiry door => door < 32
  | .openTimeExpiry door => door < 32
  | .pairWindowExpiry door => door < 32
  | .countdownTick group => group < 4
  | .countdownEnd group => group < 4
  | .sealTimerExpiry group => group < 4
  | .pulseTimerExpiry group => group < 4
  | .escalationTimerExpiry number => 1 ≤ number && number ≤ 255
  | .silenceTimerExpiry number => 1 ≤ number && number ≤ 255
  | .scrubIntervalExpiry => true
  | .forcedTurn => true
  | .storeGrant => true
  | .credentialLookupComplete _ => true
  | .pendantLookupComplete _ => true
  | .readCredentialComplete _ => true
  | .writeCredentialComplete => true
  | .eraseCredentialComplete => true
  | .modifyCredentialComplete _ => true
  | .scrubStepComplete _ => true
  | .goodReply reply => reply.wf
  | .replyTimeout => true
  | .faultyCharacter _ => true
  | .retry => true
  | .loopTestWindowEnd _ => true
  | .attemptFailsOnReply _ => true

end Sys2Proof
end

