-- ==== Sys2Proof/Certificates/Slice0/Obligations.lean ====
section
/-! DEFINITION. The statements about the AS740 that are to be proved, in the order of OBLIGATIONS.json. A frame is
written as an equation: a state with the blocks named put back to what they were is the state before. -/

open Sys2Proof Sys2Proof.Machine

/-! ### The step and the whole part -/

/-- The step is the command at the front of the queue, carried out with the queue's rest. -/
def Obligations.Step_Takes_The_Front_Command : Prop :=
  ∀ (c : Instr) (rest : List Instr) (s : State), s.pending = c :: rest →
    Machine.step s = exec c { s with pending := rest }

/-- The model's choice (log 2): on an empty queue a serving part counts one tick. Every door timer falls by one, a group
in COUNTDOWN with more than a tick left and a door whose unlock time runs out get their commands, and the records, the
roster, the grants and the nonvolatile memory stay; the poll in flight is sent by then, so that the loop driver enable is
released (log 10). -/
def Obligations.Empty_Queue_Counts_A_Tick : Prop :=
  ∀ s : State, s.pending = [] → s.serving = true → Tab.wf (fun _ => DoorVol.initial) s.doors = true →
    ∃ t, Machine.step s = .next t ∧
      (∀ d, (t.door d).timer = (s.door d).timer.map (· - 1) ∧ (t.door d).state = (s.door d).state) ∧
      (∀ g, g ≤ 3 → (s.group g).state = .countdown → 2 ≤ (s.group g).remaining.getD 0 → .countdownTick g ∈ t.pending) ∧
      (∀ d, (s.door d).state = .released → (s.door d).timer = some 1 → .unlockTimeExpiry d ∈ t.pending) ∧
      t.clock.minuteTimer = min 599 (s.clock.minuteTimer + 1) ∧ t.clock.timeOfWeek = s.clock.timeOfWeek ∧
      t.loop = { s.loop with exchange := s.loop.exchange.map fun e => { e with sending := false } } ∧
      driverEnable t = false ∧
      { t with clock := s.clock, doors := s.doors, store := s.store, release := s.release, alarms := s.alarms,
               loop := s.loop, ports := s.ports, pending := [] } = s

/-- The model's choice (logs 6, 7 and 9): no command stops the part. Each has a next state, in every state and with every
operand, those in which its event cannot happen included (log 6), and it never touches the commands that wait behind it
(log 7), nor does a power-on, a reset or a loss of power (log 9). -/
def Obligations.Every_Command_Completes : Prop :=
  ∀ (c : Instr) (s : State), ∃ t, exec c s = .next t ∧ t.pending = s.pending

/-- Without power, or with the reset pin asserted, no command but POWER_ON does anything. -/
def Obligations.Part_Without_Power_Does_Nothing : Prop :=
  ∀ (c : Instr) (s : State), s.serving = false → (∀ load, c ≠ .powerOn load) → exec c s = .next s

/-! ### What every step keeps -/

/-- No transmitter stays idle while a frame waits for it, and no rate setting waits longer than R195 says. -/
def Obligations.Ports_Stay_At_Rest : Prop :=
  ∀ s t : State, Settled s → Machine.step s = .next t → Settled t

/-- The bounds of the pending BUSY replies and of the notice queues; of the urgent queue, with at most one entry for a
node; and of the audit log, which loses its oldest records only when it is full and then sets its wrapped mark, but for
what Read Audit takes and what an end of power or a power-on clears. -/
def Obligations.Port_Queues_Stay_Bounded : Prop :=
  (∀ s t : State, PortsBounded s → Machine.step s = .next t → PortsBounded t) ∧
  (∀ s t : State, UrgentBounded s → Machine.step s = .next t → UrgentBounded t) ∧
  (∀ s t : State, s.afterHours.audit.length ≤ 256 → Machine.step s = .next t →
    t.afterHours.audit.length ≤ 256 ∧
      ((∀ c ∈ s.pending.head?, (∀ h, c ≠ .readAudit h) ∧ (∀ l, c ≠ .powerOn l) ∧ (∀ l, c ≠ .powerLoss l) ∧
        ∀ l, c ≠ .resetAsserted l) → AuditGrows s t))

/-- The alarm queue holds at most 32 records in priority order, no two of one number or key, numbers and the next number
stay within 1..255, only PENDANT records are unlocated, and the general alarm line is driven exactly while a RAISED
record stands at level 3. -/
def Obligations.Alarm_Line_Follows_The_Records : Prop :=
  ∀ s t : State, AlarmsSound s → Machine.step s = .next t → AlarmsSound t

/-- The two lines of a release pair are driven only while the group that names the pair is RELEASING. -/
def Obligations.Lines_Driven_Only_While_Releasing : Prop :=
  ∀ s t : State, GroupsSound s ∧ LinesHonest s → Machine.step s = .next t → GroupsSound t ∧ LinesHonest t

/-- Remaining and elapsed of the groups 0..3 are present exactly in COUNTDOWN, HELD, SEAL-WAIT and RELEASING, and
remaining is never above Dmax; with it goes that no two groups name one release pair and that Rmin is at most Dmax. No
grant has more entrants than its maximum. Each roster slot has the fields of its state,
a credential number has at most one slot, and the committed count of a tracked zone stays within its capacity; the
invariants that go with this say that only zones 1..15 are tracked, and that an INVALID configuration leaves the loop, the
decisions and the roster empty. -/
def Obligations.Countdowns_Stay_Sound : Prop :=
  (∀ s t : State, GroupsSound s ∧ CountdownSound s → Machine.step s = .next t → GroupsSound t ∧ CountdownSound t) ∧
  (∀ s t : State, GrantsWithin s → Machine.step s = .next t → GrantsWithin t) ∧
  (∀ s t : State, RosterSound s ∧ ZonesSound s ∧ InvalidQuiet s → Machine.step s = .next t →
    RosterSound t ∧ ZonesSound t ∧ InvalidQuiet t)

/-- A credential number is in use in at most one slot. -/
def Obligations.Numbers_In_Use_Stay_Unique : Prop :=
  ∀ s t : State, NumbersUnique s → Machine.step s = .next t → NumbersUnique t

/-- The state after reset meets every one of these invariants. What its nonvolatile memory holds, a configuration and
agent-spent cells never written and empty credential slots, is the model's choice (logs 1 and 3). -/
def Obligations.Reset_Meets_The_Invariants : Prop :=
  Settled State.reset ∧ PortsBounded State.reset ∧ AlarmsSound State.reset ∧ GroupsSound State.reset ∧
    LinesHonest State.reset ∧ CountdownSound State.reset ∧ NumbersUnique State.reset ∧ UrgentBounded State.reset ∧
    State.reset.afterHours.audit.length ≤ 256 ∧ GrantsWithin State.reset ∧ RosterSound State.reset ∧
    ZonesSound State.reset ∧ InvalidQuiet State.reset

/-! ### Requests and ports (10) -/

/-- A request that arrives while one is in flight on its port is answered BUSY with its own tag and code, or discarded
where four BUSY replies wait already; the request in flight and every other block stay. -/
def Obligations.Busy_Port_Answers_Busy : Prop :=
  ∀ (c : Instr) (h : Head) (code : Nat) (f : InFlight) (s : State), requestOf c = some (h, code) → s.serving = true →
    (s.port h.port).receive = .hunt → Settled s → (s.port h.port).inFlight = some f →
    ∃ t, exec c s = .next t ∧ { t with ports := s.ports } = s ∧ (t.port h.port).inFlight = some f ∧
      (if (s.port h.port).busy.length < 4 then
        (t.port h.port).sending = some (.busy h.tag code) ∨ (h.tag, code) ∈ (t.port h.port).busy
      else (t.port h.port).busy = (s.port h.port).busy ∧ (t.port h.port).sending = (s.port h.port).sending)

/-- A request outside its port's role is refused as NOT-PERMITTED, and one within the role whose parameters have not the
layout's length as BAD-PARAM; neither is ever in flight, and no other block changes. -/
def Obligations.Role_And_Length_Are_Checked_First : Prop :=
  ∀ (c : Instr) (h : Head) (code : Nat) (s : State), requestOf c = some (h, code) → s.serving = true →
    (s.port h.port).receive = .hunt → (s.port h.port).inFlight = none → (roleAllows h.port code = false ∨ h.sized = false) →
    ∃ t, exec c s = .next t ∧ { t with ports := s.ports } = s ∧ (t.port h.port).inFlight = none ∧
      (let r := if roleAllows h.port code then Result.badParam else Result.notPermitted
       (t.port h.port).sending = some (.reply ⟨h.tag, r, code, []⟩) ∨
        (⟨h.tag, r, code, []⟩ : Reply) ∈ (t.port h.port).refused)

/-- UNKNOWN_REQUEST: an undefined code is refused as UNKNOWN-REQUEST while no request is in flight, and answered BUSY
while one is. -/
def Obligations.Unknown_Code_Is_Refused : Prop :=
  ∀ (h : Head) (code : Nat) (s : State), s.serving = true → (s.port h.port).receive = .hunt →
    codeDefined code = false → Settled s →
    ∃ t, exec (.unknownRequest h code) s = .next t ∧ { t with ports := s.ports } = s ∧
      (if (s.port h.port).inFlight = none then
        (t.port h.port).sending = some (.reply ⟨h.tag, .unknownRequest, code, []⟩) ∨
          (⟨h.tag, .unknownRequest, code, []⟩ : Reply) ∈ (t.port h.port).refused
      else (s.port h.port).busy.length < 4 →
        (t.port h.port).sending = some (.busy h.tag code) ∨ (h.tag, code) ∈ (t.port h.port).busy)

/-- SET_NOTICE_FILTER and READ_STATUS: the asking port's filter becomes the set given, and the reply carries it; a status
is answered with the values that its rule names, in that order, the notices-lost flag as it stood, and that flag is
cleared. No other port and no other block changes. How a condition and a list are sent is the model's choice (log 22). -/
def Obligations.Filter_And_Lost_Flag_Are_The_Ports_Own : Prop :=
  ∀ (h : Head) (categories : Byte) (s : State), LinkQuiet s h.port → Settled s →
    let q := s.port h.port
    let doors := (List.range 32).filter fun d => !decide ((s.config.door d).node = 0)
    let notable := doors.filter fun d => decide ((s.door d).state ∈ [DoorState.forced, .heldOpen, .fail])
    let alarms := if h.port = .console then s.alarms.records
      else s.alarms.records.filter fun r => !decide (r.key.kind = .duress)
    let status :=
      [Val.flag q.lost, .u8 q.notices.length, .u8 q.filter.toNat, .u8 q.rate.n, .u8 q.rate.k,
       .u8 (if s.ports.linkPresent then 0 else 1), .u16 s.clock.timeOfWeek, Val.named s.clock.timeKnown,
       Val.named s.clock.closureDay.isSome, .u8 (if s.configValid then 0 else 1)] ++
      (List.range 4).flatMap (fun g => [.u8 (s.group g).state.ctorIdx, Val.named (s.group g).spent]) ++
      [DoorState.secure, .pairWait, .released, .open, .heldOpen, .forced, .fail].map
        (fun st => .u8 (doors.countP fun d => decide ((s.door d).state = st))) ++
      .u8 notable.length :: notable.map .u8 ++
      [.u8 alarms.length, .u8 (alarms.countP fun r => !r.acked), Val.flag s.alarms.line, .u16 s.config.windowLow,
       .u16 s.config.windowHigh]
    (Takes s h Code.setNoticeFilter → ∃ t, exec (.setNoticeFilter h categories) s = .next t ∧
      (t.port h.port).filter = categories ∧ (t.port h.port).lost = (s.port h.port).lost ∧
      Replied t h Code.setNoticeFilter .done [.u8 categories.toNat] ∧ (t.port h.port).notices = (s.port h.port).notices ∧
      (∀ p, p ≠ h.port → t.port p = s.port p) ∧ { t with ports := s.ports } = s) ∧
    (Takes s h Code.readStatus → ∃ t, exec (.readStatus h) s = .next t ∧
      Replied t h Code.readStatus .done status ∧ (t.port h.port).lost = false ∧
      (t.port h.port).filter = (s.port h.port).filter ∧ (t.port h.port).notices = (s.port h.port).notices ∧
      (∀ p, p ≠ h.port → t.port p = s.port p) ∧ { t with ports := s.ports } = s)

/-- FRAME_GAP, RECEIVE_CHARACTER_FAULT, DISCARDED_FRAME and NON_REQUEST_FRAME: a broken assembly leaves the receiver in
HUNT and everything else of the port as it was, but for a rate that waited for HUNT; a discarded frame leaves everything
but the receiver, and bytes that complete a valid frame are not one and do nothing (log 6); a valid frame that is no
request is ignored but for the supervision of the fire link. While its receiver assembles another frame, no frame has
arrived, and neither it nor a request does anything (log 6). -/
def Obligations.Frames_Without_A_Request_Leave_Nothing : Prop :=
  ∀ (p : Port) (bytes : List Byte) (s : State), s.serving = true → Settled s →
    let alike := fun (q : PortState) =>
      { q with receive := (s.port p).receive, rate := (s.port p).rate, rateDue := (s.port p).rateDue } = s.port p
    (∀ c, c = .frameGap p ∨ c = .receiveCharacterFault p →
      ∃ t, exec c s = .next t ∧ (t.port p).receive = .hunt ∧ alike (t.port p) ∧ (∀ k, k ≠ p → t.port k = s.port k) ∧
        t.ports.silence = s.ports.silence ∧ t.ports.linkPresent = s.ports.linkPresent ∧
        { t with ports := s.ports } = s) ∧
    (∃ t, exec (.discardedFrame p bytes) s = .next t ∧ alike (t.port p) ∧
      (t.port p).receive =
        (if (s.port p).receive.completes bytes then (s.port p).receive else (s.port p).receive.takeAll bytes) ∧ (∀ k, k ≠ p → t.port k = s.port k) ∧
      t.ports.silence = s.ports.silence ∧ t.ports.linkPresent = s.ports.linkPresent ∧ { t with ports := s.ports } = s) ∧
    (∃ t, exec (.nonRequestFrame p) s = .next t ∧ (t.port p).receive = (s.port p).receive ∧
      alike (t.port p) ∧
      (if p = .fire ∧ (s.port p).receive = .hunt then t.ports.silence = 0 ∧ t.ports.linkPresent = true
       else (∀ k, k ≠ p → t.port k = s.port k) ∧ t.ports.silence = s.ports.silence ∧
         t.ports.linkPresent = s.ports.linkPresent) ∧
      { t with ports := s.ports } = s) ∧
    (∀ c h code, requestOf c = some (h, code) ∨ c = .unknownRequest h code → h.port = p → (s.port p).receive ≠ .hunt →
      exec c s = .next s)

/-- LINE_BREAK: the receiver returns to HUNT, the pending BUSY replies go, and the reply of a request in flight is
suppressed; the notices, the filter, the notices-lost flag and the transmitter stay, and so does every other block. -/
def Obligations.Line_Break_Suppresses_The_Reply : Prop :=
  ∀ (p : Port) (s : State), s.serving = true → Settled s →
    ∃ t, exec (.lineBreak p) s = .next t ∧ (t.port p).receive = .hunt ∧ (t.port p).busy = [] ∧
      (t.port p).inFlight = (s.port p).inFlight.map (fun f => { f with suppressed := true }) ∧
      (t.port p).notices = (s.port p).notices ∧ (t.port p).filter = (s.port p).filter ∧
      (t.port p).lost = (s.port p).lost ∧ (t.port p).sending = (s.port p).sending ∧
      (∀ k, k ≠ p → t.port k = s.port k) ∧ { t with ports := s.ports } = s

/-- TRANSMITTER_FRAME_END: the transmitter takes the next frame in the order BUSY replies, the reply of the request that
has ended, the reply of a refused request, the oldest notice. That of several replies of one kind the oldest is taken is
the model's choice (log 122). -/
def Obligations.Transmitter_Keeps_Its_Order : Prop :=
  ∀ (p : Port) (s : State), s.serving = true →
    ∃ t, exec (.transmitterFrameEnd p) s = .next t ∧ { t with ports := s.ports } = s ∧
      (∀ tag code rest, (s.port p).busy = (tag, code) :: rest →
        (t.port p).sending = some (.busy tag code) ∧ (t.port p).busy = rest ∧ (t.port p).notices = (s.port p).notices) ∧
      (∀ r rest, (s.port p).busy = [] → (s.port p).replies = r :: rest →
        (t.port p).sending = some (.reply r) ∧ (t.port p).replies = rest ∧ (t.port p).notices = (s.port p).notices) ∧
      (∀ r rest, (s.port p).busy = [] → (s.port p).replies = [] → (s.port p).refused = r :: rest →
        (t.port p).sending = some (.reply r) ∧ (t.port p).refused = rest ∧ (t.port p).notices = (s.port p).notices) ∧
      (∀ n rest, (s.port p).busy = [] → (s.port p).replies = [] → (s.port p).refused = [] →
        (s.port p).notices = n :: rest → (t.port p).sending = some (.notice n) ∧ (t.port p).notices = rest) ∧
      ((s.port p).busy = [] → (s.port p).replies = [] → (s.port p).refused = [] → (s.port p).notices = [] →
        (t.port p).sending = none)

/-- FIRE_LINK_LOST, the silence timer at its 100 ticks: the panel hold flag of every group lapses, and a group in HELD by
the panel alone returns to COUNTDOWN with at least Rmin; nothing beyond the release controller and what it drives changes.
Where a frame has restarted the timer, or the link is LOST already, nothing happens. -/
def Obligations.Fire_Link_Loss_Lapses_Holds : Prop :=
  ∀ s : State, s.serving = true →
    (s.ports.linkPresent = true → 100 ≤ s.ports.silence →
      ∃ t, exec .fireLinkLost s = .next t ∧ t.ports.linkPresent = false ∧
      (∀ g, g ≤ 3 → (t.group g).panelHold = false) ∧
      (∀ g r, g ≤ 3 → (s.group g).state = .held → (s.group g).manual = false → (s.group g).panelHold = true →
        heldAborts s g = [] → (s.group g).remaining = some r →
        (t.group g).state = .countdown ∧ (t.group g).remaining = some (max r (s.config.group g).rmin) ∧
          (t.group g).elapsed = (s.group g).elapsed) ∧
      { t with ports := s.ports, release := s.release, loop := s.loop, loopTest := s.loopTest, points := s.points } = s) ∧
    (s.ports.linkPresent = false ∨ s.ports.silence < 100 →
      ∃ t, exec .fireLinkLost s = .next t ∧ t.ports.linkPresent = s.ports.linkPresent ∧
        t.ports.silence = s.ports.silence ∧ { t with ports := s.ports } = s)

/-- R201: the CRC of the length byte and the body is the remainder of their bits, the most significant bit of each byte
first, at the division by x^16 + x^12 + x^5 + 1, with the register starting at FFFFh and nothing inverted at the end; the
part sends it high byte first, and judges a received frame by it. So every frame that the part sends, taken byte by byte
by a receiver in HUNT, is found valid at its last byte and at no earlier one, and gives back its body. -/
def Obligations.Receiver_Accepts_Sent_Frames : Prop :=
  let poly := fun (n : Nat) (w : BitVec n) =>
    ∑ i ∈ Finset.range n, if w.getLsbD i then (Polynomial.X : Polynomial (ZMod 2)) ^ i else 0
  let message := fun (bs : List Byte) => bs.foldl (fun m b => m * Polynomial.X ^ 8 + poly 8 b) 0
  (∀ bs : List Byte, ∃ q, poly 16 0xFFFF#16 * Polynomial.X ^ (8 * bs.length) + message bs * Polynomial.X ^ 16 =
    q * (Polynomial.X ^ 16 + Polynomial.X ^ 12 + Polynomial.X ^ 5 + 1) + poly 16 (crc bs)) ∧
  (∀ f : Frame, f.body.length ≤ 250 → ∃ hi lo : Byte,
    f.bytes = 0xA5#8 :: BitVec.ofNat 8 f.body.length :: f.body ++ [hi, lo] ∧
      256 * hi.toNat + lo.toNat = (crc (BitVec.ofNat 8 f.body.length :: f.body)).toNat) ∧
  (∀ (len : Nat) (body : List Byte) (hi lo : Byte), ((Receive.check len body []).take hi).1.take lo =
    (.hunt, if 256 * hi.toNat + lo.toNat = (crc (BitVec.ofNat 8 len :: body)).toNat then some body else none)) ∧
  ∀ f : Frame, f.body.length ≤ 250 →
    ∃ front last, f.bytes = front ++ [last] ∧ (Receive.hunt.takeAll front).take last = (.hunt, some f.body) ∧
      ∀ k b rest, front = k ++ b :: rest → ((Receive.hunt.takeAll k).take b).2 = none

/-- The divider law: each whole divisor from 32 to 255 is given by exactly one setting of N and K. -/
def Obligations.Each_Divisor_Has_One_Setting : Prop :=
  ∀ d, 32 ≤ d → d ≤ 255 →
    ∃ r : Rate, (2 ≤ r.n ∧ r.n ≤ 15 ∧ r.k ≤ 15 ∧ rateDivisor r = d) ∧
      ∀ q : Rate, 2 ≤ q.n → q.n ≤ 15 → q.k ≤ 15 → rateDivisor q = d → q = r

/-! ### Reads (01, 02, 03, 05, 06, 07, 09, 11) -/

/-- READ_ZONE, from any port: the configured fields, the counts and the conditions as they stand when the request is
taken; the fixed record for zone 0, for whose class the rule names no value; BAD-PARAM above 15. How a condition, a
value that is yes or no and "no group" are sent is the model's choice (log 22). -/
def Obligations.Read_Zone_Shows_The_Record : Prop :=
  ∀ (h : Head) (zone : Nat) (s : State), s.serving = true → (s.port h.port).receive = .hunt →
    (s.port h.port).inFlight = none → h.sized = true →
    (1 ≤ zone → zone ≤ 15 → AnswersOnly (.readZone h zone) s h Code.readZone .done
      ((Tab.get ZoneRec.default s.config.zones zone).vals ++
        [.u8 (occupancy s zone), .u8 (committed s zone), Val.flag (s.zone zone).afterHours,
         Val.flag (s.zone zone).lockdown, Val.flag (s.zone zone).occUnknown])) ∧
    (zone = 0 → ∃ cls, AnswersOnly (.readZone h zone) s h Code.readZone .done
      ({ ZoneRec.default with cls := cls }.vals ++ [.u8 0, .u8 0, Val.flag false, Val.flag false, Val.flag false])) ∧
    (15 < zone → AnswersOnly (.readZone h zone) s h Code.readZone .badParam [])

/-- READ_DOOR, READ_GROUP, READ_ROSTER, READ_ALARM_QUEUE, READ_POINT, READ_LOOP_TEST and READ_CONFIGURATION_RECORD: each
answers the values that its rule names, in that order, as they stand when the request is taken, a parameter out of range
is refused as BAD-PARAM, and nothing changes beyond the ports. These clauses rest on the model's choices: how a list, a
condition and an unreported reading are sent (log 22), the index 0 of the record kinds that have none (log 44), the value
of the last failure reason (log 49), the class byte of READ_ZONE for zone 0 (log 62), the three zeros of a schedule's
inert window (log 76), every value of READ_GROUP in one reply however many they are (log 101), and the lowest of two groups
that suspend an override (log 108). -/
def Obligations.Reads_Show_The_State : Prop :=
  ∀ (h : Head) (s : State),
    let numbers := fun (ns : List Nat) => Val.u8 ns.length :: ns.map Val.u8
    let points := fun (ns : List Nat) => Val.u8 ns.length :: ns.map Val.u16
    let doorVals := fun (r : DoorRec) =>
      [Val.u8 r.sideA, .u8 r.sideB, .u8 r.cls.ctorIdx, .u8 r.node, .u8 r.passback.ctorIdx, .u16 r.u, .u16 r.h, .u16 r.w,
       .u8 r.failMode.ctorIdx]
    let groupVals := fun (zs : List Nat) (r : GroupRec) =>
      [Val.u16 (zoneBits zs), .u16 r.b, .u16 r.a, .u8 r.c, .u16 r.dmax, .u16 r.rmin, .u16 r.bm, .u16 r.s, .u16 r.p] ++
        .u8 r.detectors.length :: r.detectors.flatMap (fun d => [.u16 d.1, .u8 d.2.ctorIdx]) ++ .u8 r.pair ::
        .u8 r.warnings.length :: r.warnings.flatMap (fun w => [.u16 w.1, .u8 w.2.ctorIdx])
    (Takes s h Code.readZone → AnswersOnly (.readZone h 0) s h Code.readZone .done
      [Val.named false, .u8 4, .u8 0, .u8 Config.noGroupCode, .u8 0, .u16 0, .u16 0, .u8 0, .u8 0, Val.flag false,
       Val.flag false, Val.flag false]) ∧
    (∀ d, Takes s h Code.readDoor →
      let v := s.door d
      (d ≤ 31 → AnswersOnly (.readDoor h d) s h Code.readDoor .done
        (doorVals (s.config.door d) ++
          [.u8 v.state.ctorIdx, Val.opt8 (v.kind.map (·.ctorIdx)), .u8 v.pset.length] ++ v.pset.map .u24 ++
          [Val.opt8 v.target, Val.opt24 (v.pair.map (·.credential)), Val.opt8 (v.pair.map (·.side.ctorIdx)),
           Val.opt16 v.timer, .u8 v.contact.ctorIdx, Val.flag (knownClosed s d),
           .u8 (s.node (s.config.door d).node).sup.ctorIdx, Val.flag v.decA.isSome, .u8 v.respA.code,
           Val.flag v.decB.isSome, .u8 v.respB.code,
           Val.flag (zoneSealed s (s.config.door d).sideA || zoneSealed s (s.config.door d).sideB),
           Val.flag (zoneLocked s (s.config.door d).sideA || zoneLocked s (s.config.door d).sideB)])) ∧
      (31 < d → AnswersOnly (.readDoor h d) s h Code.readDoor .badParam [])) ∧
    (∀ g, Takes s h Code.readGroup →
      let v := s.group g
      let zs := groupZones s g
      (g ≤ 3 → AnswersOnly (.readGroup h g) s h Code.readGroup .done
        (groupVals zs (s.config.group g) ++
          [.u8 v.state.ctorIdx, Val.opt16 v.remaining, Val.opt16 v.elapsed, Val.named v.manual, Val.named v.panelHold,
           Val.named v.spent, Val.opt16 (v.sealTimer.or v.pulse), .u8 (nEff s g), .u16 (delayD s g), .u16 (delayM s g),
           .u16 (zoneBits (zs.filter fun z => (s.zone z).occUnknown))] ++
          points (activeOf s g .x) ++ points (activeOf s g .y) ++
          Val.flag (!(activeOf s g .x).isEmpty && !(activeOf s g .y).isEmpty) :: points (heldAborts s g) ++
          numbers ((groupStations s g).filter fun n => s.release.holdMarks.contains n) ++
          numbers ((groupDoors s g).filter fun d => !knownClosed s d))) ∧
      (3 < g → AnswersOnly (.readGroup h g) s h Code.readGroup .badParam [])) ∧
    (∀ first filter, Takes s h Code.readRoster →
      let is := (List.range 128).filter fun i => decide (first ≤ i) && !decide ((s.slot i).state = .free) &&
        (filter == 0 || (s.slot i).zone == some filter || (s.slot i).pendZone == some filter)
      let shown := is.take 8
      (first ≤ 127 → filter ≤ 15 → AnswersOnly (.readRoster h first filter) s h Code.readRoster .done
        (.u8 shown.length :: shown.flatMap (fun i =>
            let v := s.slot i
            [.u8 i, .u8 v.state.ctorIdx, .u24 v.credential, Val.opt8 v.zone, Val.opt8 v.pendZone, Val.opt8 v.pendDoor,
             Val.opt16 v.entered, Val.mark v.mark, Val.mark v.duress, Val.opt8 v.grant,
             Val.opt16 (v.deadline.map (·.minute)), Val.opt16 (v.deadline.map (·.phase)),
             Val.opt8 (v.deadline.map (·.stage.ctorIdx))]) ++
          [.u8 ((List.range 128).countP fun i => decide ((s.slot i).state = .free)),
           .u8 (if is.length ≤ 8 then 128 else (is[7]?.getD 0) + 1)])) ∧
      (127 < first ∨ 15 < filter → AnswersOnly (.readRoster h first filter) s h Code.readRoster .badParam [])) ∧
    (∀ first, Takes s h Code.readAlarmQueue →
      let rs := if h.port = .console then s.alarms.records
        else s.alarms.records.filter fun r => !decide (r.key.kind = .duress)
      let shown := (rs.drop first).take 8
      (first ≤ 31 → AnswersOnly (.readAlarmQueue h first) s h Code.readAlarmQueue .done
        (.u8 shown.length :: shown.flatMap (fun r =>
            [.u8 r.number, .u8 r.key.kind.ctorIdx, .u8 r.key.kind.priority, .u8 r.key.zone, Val.opt24 r.key.person,
             Val.opt16 r.key.pendant, Val.opt8 r.key.door, Val.opt8 r.grant, .u16 r.raised, .u8 r.repeats,
             .u8 (if r.acked then 1 else 0), Val.named r.active,
             if r.key.kind = .pendant then Val.named r.unlocated else .u8 0, .u8 r.level, Val.opt16 r.escalation]) ++
          [.u8 rs.length, .u8 (rs.countP fun r => !r.acked), .u8 s.alarms.overflow, Val.flag s.alarms.line,
           .u8 (if rs.length ≤ first + 8 then 32 else first + 8)])) ∧
      (31 < first → AnswersOnly (.readAlarmQueue h first) s h Code.readAlarmQueue .badParam [])) ∧
    (∀ pt, Takes s h Code.readPoint →
      let n := pt / 16
      let v := s.node n
      let susp := if s.override pt = .none then none else suspendedBy s pt
      (16 ≤ pt → pt ≤ 975 → nodeType s n ≠ .none → AnswersOnly (.readPoint h pt) s h Code.readPoint .done
        [.u8 (((v.input[pt % 16]?).map (·.ctorIdx)).getD 4), .u8 (circuitOwner s n (pt % 16)).ctorIdx,
         .u8 (outputPointOwner s pt).ctorIdx, Val.named (s.base pt), .u8 (s.override pt).ctorIdx, Val.flag susp.isSome,
         Val.opt8 susp, Val.named (effective s pt), .u8 (nodeType s n).ctorIdx, .u8 v.sup.ctorIdx, .u8 v.f, .u8 v.g,
         Val.opt8 (v.lastFail.map (·.ctorIdx)), Val.flag (testing s n)]) ∧
      (pt < 16 ∨ 975 < pt ∨ nodeType s n = .none → AnswersOnly (.readPoint h pt) s h Code.readPoint .badParam [])) ∧
    (Takes s h Code.readLoopTest →
      (s.loopTest = none → AnswersOnly (.readLoopTest h) s h Code.readLoopTest .done
        [.u8 0, .u8 0, .u8 0, .u16 0, .u8 0, .u16 0, .u16 0, .u8 0, .u8 0, .u16 0, .u8 0]) ∧
      (∀ k, s.loopTest = some k → AnswersOnly (.readLoopTest h) s h Code.readLoopTest .done
        [.u8 1, Val.flag k.cause.isNone, .u8 k.node, .u16 k.window, .u8 (if k.inSync then 1 else 0), .u16 k.errors,
         .u16 k.inWindow, .u8 k.position, Val.opt8 (k.result.map BitVec.toNat), .u16 k.windows,
         Val.opt8 (k.cause.map (·.ctorIdx))])) ∧
    (∀ kind index, Takes s h Code.readConfigurationRecord →
      let shows := fun (vals : List Val) => AnswersOnly (.readConfigurationRecord h kind index) s h
        Code.readConfigurationRecord .done (vals ++ [.u8 (if s.configValid then 0 else 1)])
      let c := s.config
      let window := fun (w : Option Window) =>
        [Val.u8 ((w.map (·.mask.toNat)).getD 0), .u16 ((w.map (·.start)).getD 0), .u16 ((w.map (·.stop)).getD 0)]
      (kind = 0 → 1 ≤ index → index ≤ 15 →
        let r := c.zone index
        shows [Val.named r.tracked, .u8 r.cls.ctorIdx, .u8 r.schedule, .u8 (r.group.getD Config.noGroupCode),
               .u8 r.capacity, .u16 r.interval, .u16 r.grace]) ∧
      (kind = 1 → index ≤ 7 →
        let r := c.schedule index
        shows (window r.w0 ++ window r.w1 ++ window r.w2 ++ window r.w3)) ∧
      (kind = 2 → index ≤ 31 → shows (doorVals (c.door index))) ∧
      (kind = 3 → 1 ≤ index → index ≤ 60 →
        let r := c.node index
        shows ([.u8 r.type.ctorIdx, .u8 r.zone] ++
          (List.range 16).map fun k => .u8 ((r.functions[k]?.getD CircuitFn.none).ctorIdx))) ∧
      (kind = 4 → index ≤ 3 → shows (groupVals (groupZones s index) (c.group index))) ∧
      (kind = 5 → index = 0 → shows (numbers c.pollList)) ∧
      (kind = 6 → index = 0 →
        shows [.u8 c.timing.tr, .u8 c.timing.r, .u8 c.timing.l, .u8 c.timing.g, .u8 c.timing.rate.n, .u8 c.timing.rate.k]) ∧
      (kind = 7 → index = 0 → shows [.u16 c.scrubInterval, .u16 c.escalation]) ∧
      (kind = 8 → index = 0 →
        shows [.u8 c.rateA.n, .u8 c.rateA.k, .u8 c.rateB.n, .u8 c.rateB.k, .u8 c.rateC.n, .u8 c.rateC.k]) ∧
      (kind = 9 → index = 0 → shows [.u16 c.windowLow, .u16 c.windowHigh]) ∧
      (9 < kind ∨ (kind = 0 ∨ kind = 3) ∧ index = 0 ∨ kind = 0 ∧ 15 < index ∨ kind = 1 ∧ 7 < index ∨
          kind = 2 ∧ 31 < index ∨ kind = 3 ∧ 60 < index ∨ kind = 4 ∧ 3 < index ∨ 5 ≤ kind ∧ index ≠ 0 →
        AnswersOnly (.readConfigurationRecord h kind index) s h Code.readConfigurationRecord .badParam []))

/-- READ_AUDIT, from the Access Port or the Console Port: the oldest records, up to 8, are answered, their count ahead
of them (the model's choice, log 22), with the number left and the wrapped mark as it stood; they leave the log at the
taking, and the mark is cleared. From the Fire Port the request is refused by its role. -/
def Obligations.Read_Audit_Takes_The_Oldest : Prop :=
  ∀ (h : Head) (s : State), s.serving = true → (s.port h.port).receive = .hunt → (s.port h.port).inFlight = none →
    (h.port = .access ∨ h.port = .console → h.sized = true → ∃ t, exec (.readAudit h) s = .next t ∧
      t.afterHours = { s.afterHours with audit := s.afterHours.audit.drop 8, wrapped := false } ∧
      Replied t h Code.readAudit .done
        (counted ((s.afterHours.audit.take 8).map AuditRec.vals) ++
          [.u8 (s.afterHours.audit.length - 8), Val.flag s.afterHours.wrapped]) ∧
      { t with afterHours := s.afterHours, ports := s.ports } = s) ∧
    (h.port = .fire → ∃ t, exec (.readAudit h) s = .next t ∧ { t with ports := s.ports } = s ∧
      ((t.port h.port).sending = some (.reply ⟨h.tag, .notPermitted, Code.readAudit, []⟩) ∨
        (⟨h.tag, .notPermitted, Code.readAudit, []⟩ : Reply) ∈ (t.port h.port).refused))

/-! ### Clock and zones (01) -/

/-- SET_TIME: a minute above 10079 is refused. A minute in range is taken by the clock, and the closure-day flag falls
unless the new day is its own; every deadline keeps its ticks left and every grant its minutes left; and every zone takes
the status of the test at the new time. The occupants of a zone that goes into after-hours and are not marked are marked,
with a new deadline and a CARRIED-OVER record; those of a zone that goes into hours lose mark and deadline. Where no zone's
status changes no event of the past moves, and nothing beyond the clock, deadlines, expiries and ports does. -/
def Obligations.Set_Time_Keeps_What_Is_Left : Prop :=
  ∀ (h : Head) (minute : Nat) (s : State), Takes s h Code.setTime →
    (10079 < minute → AnswersOnly (.setTime h minute) s h Code.setTime .badParam []) ∧
    (minute ≤ 10079 → s.clock.timeOfWeek ≤ 10079 → s.clock.minuteTimer ≤ 599 →
    let c : Clock := ⟨minute, 0, true, s.clock.closureDay.filter (· == minute / 1440)⟩
    let ticks := (minute * 600 + 6048000 - (s.clock.timeOfWeek * 600 + s.clock.minuteTimer)) % 6048000
    let kept := fun (v : Slot) => { v with deadline := v.deadline.map fun d =>
      ⟨(d.minute * 600 + d.phase + ticks) % 6048000 / 600, (d.minute * 600 + d.phase + ticks) % 6048000 % 600, d.stage⟩ }
    let into := fun (z : Nat) => afterHoursNow { s with clock := c } z
    ∃ t, exec (.setTime h minute) s = .next t ∧ t.clock = c ∧ Replied t h Code.setTime .done [] ∧
      (∀ z, 1 ≤ z → z ≤ 15 → t.zone z = { s.zone z with afterHours := into z }) ∧
      (∀ i z, i ≤ 127 → (s.slot i).zone = some z → 1 ≤ z → z ≤ 15 →
        let due : Option Deadline := if (s.config.zone z).interval = 0 then none
          else some ⟨(minute + (s.config.zone z).interval) % 10080, 0, .due⟩
        t.slot i =
          (if into z = (s.zone z).afterHours then kept (s.slot i)
          else if into z then
            if (s.slot i).mark then kept (s.slot i) else { s.slot i with mark := true, deadline := due }
          else { s.slot i with mark := false, deadline := none }) ∧
        (into z = true → (s.zone z).afterHours = false → (s.slot i).mark = false →
          (⟨minute, .carriedOver, z, some (s.slot i).credential, none, (s.slot i).grant, none⟩ : AuditRec) ∈
            t.afterHours.audit)) ∧
      (∀ i, i ≤ 127 → (s.slot i).zone = none → t.slot i = kept (s.slot i)) ∧
      (∀ g, 1 ≤ g → g ≤ 16 → { t.grant g with expiry := (s.grant g).expiry } = s.grant g ∧
        (if (s.grant g).state = .free then (t.grant g).expiry = (s.grant g).expiry
         else ((t.grant g).expiry + 10080 - minute) % 10080 =
           ((s.grant g).expiry + 10080 - s.clock.timeOfWeek) % 10080)) ∧
      t.afterHours.places = s.afterHours.places ∧
      { t with clock := s.clock, zones := s.zones, roster := s.roster, afterHours := s.afterHours, alarms := s.alarms,
               release := s.release, loop := s.loop, loopTest := s.loopTest, points := s.points, ports := s.ports } = s ∧
      ((∀ z, 1 ≤ z → z ≤ 15 → into z = (s.zone z).afterHours) →
        (∀ i, i ≤ 127 → { t.slot i with deadline := (s.slot i).deadline } = s.slot i ∧
          (t.slot i).deadline.isSome = (s.slot i).deadline.isSome ∧
          ∀ d e, (s.slot i).deadline = some d → (t.slot i).deadline = some e →
            e.stage = d.stage ∧
            (e.minute * 600 + e.phase + 6048000 - minute * 600) % 6048000 =
              (d.minute * 600 + d.phase + 6048000 - (s.clock.timeOfWeek * 600 + s.clock.minuteTimer)) % 6048000) ∧
        { t.afterHours with grants := s.afterHours.grants } = s.afterHours ∧
        { t with clock := s.clock, roster := s.roster, afterHours := s.afterHours, ports := s.ports } = s))

/-- MINUTE_STEP: the time of week advances and wraps, a new day clears the closure-day flag, every zone takes the status
of the test at the new time, the occupants of a zone that changes are marked and given deadlines or lose both, and the
LIVE grants whose expiry is reached end: FREE with a GRANT-ENDED record, or OVERSTAY with an OVERSTAY record and, where
the queue has room, an alarm for each occupant that counts for the grant. -/
def Obligations.Minute_Step_Evaluates_Every_Zone : Prop :=
  ∀ s : State, s.serving = true →
    let tow := if s.clock.timeOfWeek + 1 = 10080 then 0 else s.clock.timeOfWeek + 1
    s.clock.timeOfWeek ≤ 10079 →
    ∃ t, exec .minuteStep s = .next t ∧
      t.clock = { s.clock with timeOfWeek := tow, minuteTimer := 0,
                               closureDay := if tow % 1440 = 0 then none else s.clock.closureDay } ∧
      (∀ z, 1 ≤ z → z ≤ 15 → t.zone z = { s.zone z with afterHours := afterHoursNow t z }) ∧
      (∀ i z, i ≤ 127 → (s.slot i).zone = some z → 1 ≤ z → z ≤ 15 →
        let due : Option Deadline := if (s.config.zone z).interval = 0 then none
          else some ⟨(tow + (s.config.zone z).interval) % 10080, 0, .due⟩
        t.slot i =
          if afterHoursNow t z = (s.zone z).afterHours then s.slot i
          else if afterHoursNow t z then
            if (s.slot i).mark then s.slot i else { s.slot i with mark := true, deadline := due }
          else { s.slot i with mark := false, deadline := none }) ∧
      (∀ i, i ≤ 127 → (s.slot i).zone = none → t.slot i = s.slot i) ∧
      (∀ g, 1 ≤ g → g ≤ 16 → t.grant g =
        if (s.grant g).state = .live ∧ (s.grant g).expiry = tow then
          if (s.grant g).count = 0 then Grant.free else { s.grant g with state := .overstay }
        else s.grant g) ∧
      (∀ g, 1 ≤ g → g ≤ 16 → (s.grant g).state = .live → (s.grant g).expiry = tow →
        let z := (s.grant g).zone
        ((s.grant g).count = 0 → (⟨tow, .grantEnded, z, none, none, some g, none⟩ : AuditRec) ∈ t.afterHours.audit) ∧
        ∀ i, i ≤ 127 → (s.grant g).count ≠ 0 → (s.slot i).grant = some g → (s.slot i).zone = some z →
          (⟨tow, .overstay, z, some (s.slot i).credential, none, some g, none⟩ : AuditRec) ∈ t.afterHours.audit ∧
          (s.alarms.records.length + (List.range 128).countP (fun j => (s.slot j).grant.isSome) ≤ 32 →
            ∃ a, a ∈ t.alarms.records ∧ a.key = ⟨.overstay, z, some (s.slot i).credential, none, none⟩ ∧
              a.active = true)) ∧
      { t with clock := s.clock, zones := s.zones, roster := s.roster, afterHours := s.afterHours, alarms := s.alarms,
               release := s.release, loop := s.loop, loopTest := s.loopTest, points := s.points, ports := s.ports } = s

/-- SET_CLOSURE_DAY: the set form, with the time known, records today and puts every zone after-hours; the clear form
clears the flag and evaluates every zone; the set form with the time unknown is refused. -/
def Obligations.Closure_Day_Is_Set_And_Cleared : Prop :=
  ∀ (h : Head) (s : State), Takes s h Code.setClosureDay →
    (s.clock.timeKnown = false → AnswersOnly (.setClosureDay h .set) s h Code.setClosureDay .badState []) ∧
    (s.clock.timeKnown = true → ∃ t, exec (.setClosureDay h .set) s = .next t ∧
      t.clock = { s.clock with closureDay := some (s.clock.timeOfWeek / 1440) } ∧
      Replied t h Code.setClosureDay .done [] ∧
      (∀ z, 1 ≤ z → z ≤ 15 → t.zone z =
        if s.clock.closureDay.isSome then s.zone z else { s.zone z with afterHours := true }) ∧
      { t with clock := s.clock, zones := s.zones, roster := s.roster, afterHours := s.afterHours, alarms := s.alarms,
               release := s.release, loop := s.loop, loopTest := s.loopTest, points := s.points, ports := s.ports } = s) ∧
    (s.clock.closureDay = none → AnswersOnly (.setClosureDay h .clear) s h Code.setClosureDay .done []) ∧
    (s.clock.closureDay.isSome = true → ∃ t, exec (.setClosureDay h .clear) s = .next t ∧
      t.clock = { s.clock with closureDay := none } ∧ Replied t h Code.setClosureDay .done [] ∧
      (∀ z, 1 ≤ z → z ≤ 15 → t.zone z = { s.zone z with afterHours := afterHoursNow t z }) ∧
      { t with clock := s.clock, zones := s.zones, roster := s.roster, afterHours := s.afterHours, alarms := s.alarms,
               release := s.release, loop := s.loop, loopTest := s.loopTest, points := s.points, ports := s.ports } = s)

/-- LOCKDOWN_ZONE and LIFT_LOCKDOWN: a zone outside 1..15 is refused, a request for the state that stands changes
nothing, and otherwise the flag of that zone alone changes. Its onset withdraws every entry release into the zone, every
remote release of a door of the zone, and every pair that waits for it; every other door stays as it is. -/
def Obligations.Lockdown_Withdraws_What_Waits : Prop :=
  ∀ (h : Head) (zone : Nat) (s : State),
    (Takes s h Code.lockdownZone →
      (zone = 0 ∨ 15 < zone → AnswersOnly (.lockdownZone h zone) s h Code.lockdownZone .badParam []) ∧
      (1 ≤ zone → zone ≤ 15 → (s.zone zone).lockdown = true →
        AnswersOnly (.lockdownZone h zone) s h Code.lockdownZone .done []) ∧
      (1 ≤ zone → zone ≤ 15 → (s.zone zone).lockdown = false →
        ∃ t, exec (.lockdownZone h zone) s = .next t ∧ Replied t h Code.lockdownZone .done [] ∧
          t.zone zone = { s.zone zone with lockdown := true } ∧ (∀ z, z ≠ zone → t.zone z = s.zone z) ∧
          (∀ d, d ≤ 31 → t.door d =
            let v := s.door d
            let r := s.config.door d
            if v.state = .released ∧ ((v.kind = some .entry ∧ v.target = some zone) ∨
                (v.kind = some .remote ∧ (r.sideA = zone ∨ r.sideB = zone))) then v.toSecure
            else match v.state, v.pair with
              | .pairWait, some p => if p.target = zone then v.toSecure.setResp p.side (.refused .lockdown) else v
              | _, _ => v) ∧
          { t with zones := s.zones, doors := s.doors, roster := s.roster, afterHours := s.afterHours, loop := s.loop,
                   points := s.points, ports := s.ports } = s)) ∧
    (Takes s h Code.liftLockdown →
      (zone = 0 ∨ 15 < zone → AnswersOnly (.liftLockdown h zone) s h Code.liftLockdown .badParam []) ∧
      (1 ≤ zone → zone ≤ 15 → (s.zone zone).lockdown = false →
        AnswersOnly (.liftLockdown h zone) s h Code.liftLockdown .done []) ∧
      (1 ≤ zone → zone ≤ 15 → (s.zone zone).lockdown = true →
        ∃ t, exec (.liftLockdown h zone) s = .next t ∧ Replied t h Code.liftLockdown .done [] ∧
          t.zone zone = { s.zone zone with lockdown := false } ∧ (∀ z, z ≠ zone → t.zone z = s.zone z) ∧
          { t with zones := s.zones, ports := s.ports } = s))

/-! ### The roster (02) -/

/-- MOVE_ROSTER_ENTRY, REMOVE_ROSTER_ENTRY and CONFIRM_ZONE_CLEAR: the checks in the order of each request's rule, the
slot and zone numbers before the state of the roster; a refused correction changes nothing beyond the ports. -/
def Obligations.Corrections_Are_Checked_In_Order : Prop :=
  ∀ (h : Head) (slot zone : Nat) (s : State),
    (Takes s h Code.moveRosterEntry →
      let r : Result :=
        if 127 < slot ∨ zone = 0 ∨ 15 < zone ∨ tracked s zone = false then .badParam
        else if (s.slot slot).state ≠ .present then .badState
        else if (s.slot slot).zone = some zone then .done
        else if (s.config.zone zone).capacity < committed s zone + 1 then .zoneFull
        else .done
      ∃ t, exec (.moveRosterEntry h slot zone) s = .next t ∧ Replied t h Code.moveRosterEntry r [] ∧
        (r ≠ .done ∨ (s.slot slot).zone = some zone → { t with ports := s.ports } = s)) ∧
    (Takes s h Code.removeRosterEntry →
      let r : Result := if 127 < slot then .badParam else if (s.slot slot).state ≠ .present then .badState else .done
      ∃ t, exec (.removeRosterEntry h slot) s = .next t ∧ Replied t h Code.removeRosterEntry r [] ∧
        (r ≠ .done → { t with ports := s.ports } = s)) ∧
    (Takes s h Code.confirmZoneClear →
      let r : Result := if zone = 0 ∨ 15 < zone ∨ tracked s zone = false then .badParam else .done
      ∃ t, exec (.confirmZoneClear h zone) s = .next t ∧ Replied t h Code.confirmZoneClear r [] ∧
        (r ≠ .done → { t with ports := s.ports } = s))

/-- The corrections that are taken: a Move puts the slot into the zone at the current minute, with the after-hours mark
and deadline of the zone it is now in, and takes it off the grant it counted for; a Remove frees the slot and takes it off
its grant, with an EXIT record where the slot was marked; the grant's count falls by one, and a grant in OVERSTAY that
nobody counts for any more is FREE; a Confirm Zone
Clear frees the PRESENT slots of the zone and clears its occupancy-unknown flag. No other slot changes. -/
def Obligations.Corrections_Move_And_Free : Prop :=
  ∀ (h : Head) (slot zone : Nat) (s : State),
    let countedOff := fun (t : State) => ∀ g, t.grant g =
      if (s.slot slot).grant = some g ∧ (s.slot slot).zone = some (s.grant g).zone then
        if (s.grant g).state = .overstay ∧ (s.grant g).count ≤ 1 then Grant.free
        else { s.grant g with count := (s.grant g).count - 1 }
      else s.grant g
    (Takes s h Code.moveRosterEntry → slot ≤ 127 → 1 ≤ zone → zone ≤ 15 → tracked s zone = true →
      (s.slot slot).state = .present → (s.slot slot).zone ≠ some zone → s.place slot = none →
      committed s zone + 1 ≤ (s.config.zone zone).capacity →
      ∃ t, exec (.moveRosterEntry h slot zone) s = .next t ∧ Replied t h Code.moveRosterEntry .done [] ∧
        (let v := s.slot slot
         let due : Option Deadline := if (s.config.zone zone).interval = 0 then none
           else some ⟨(s.clock.timeOfWeek + (s.config.zone zone).interval) % 10080, s.clock.minuteTimer, .due⟩
         t.slot slot =
           { v with zone := some zone, entered := some s.clock.timeOfWeek, mark := (s.zone zone).afterHours,
                    grant := v.grant.filter (fun g => !(v.zone == some (s.grant g).zone)),
                    deadline := if (s.zone zone).afterHours then due else if v.mark then none else v.deadline }) ∧
        (∀ i, i ≠ slot → t.slot i = s.slot i) ∧ countedOff t ∧
        { t with roster := s.roster, afterHours := s.afterHours, alarms := s.alarms, release := s.release,
                 loop := s.loop, loopTest := s.loopTest, points := s.points, ports := s.ports } = s) ∧
    (Takes s h Code.removeRosterEntry → slot ≤ 127 → (s.slot slot).state = .present →
      ∃ t, exec (.removeRosterEntry h slot) s = .next t ∧ Replied t h Code.removeRosterEntry .done [] ∧
        t.slot slot = Slot.free ∧ (∀ i, i ≠ slot → t.slot i = s.slot i) ∧ (s.place slot = none → countedOff t) ∧
        (let v := s.slot slot
         ∀ z, v.mark = true → v.zone = some z →
           (⟨s.clock.timeOfWeek, .exit, z, some v.credential, none, v.grant, none⟩ : AuditRec) ∈ t.afterHours.audit) ∧
        { t with roster := s.roster, afterHours := s.afterHours, alarms := s.alarms, release := s.release,
                 loop := s.loop, loopTest := s.loopTest, points := s.points, ports := s.ports } = s) ∧
    (Takes s h Code.confirmZoneClear → 1 ≤ zone → zone ≤ 15 → tracked s zone = true →
      ∃ t, exec (.confirmZoneClear h zone) s = .next t ∧ Replied t h Code.confirmZoneClear .done [] ∧
        (∀ i, t.slot i = if i ≤ 127 ∧ (s.slot i).state = .present ∧ (s.slot i).zone = some zone then Slot.free
          else s.slot i) ∧
        t.zone zone = { s.zone zone with occUnknown := false } ∧ (∀ z, z ≠ zone → t.zone z = s.zone z) ∧
        { t with zones := s.zones, roster := s.roster, afterHours := s.afterHours, alarms := s.alarms,
                 release := s.release, loop := s.loop, loopTest := s.loopTest, points := s.points, ports := s.ports } = s)

/-! ### Doors (03) -/

/-- REMOTE_RELEASE: its checks in their order, and the release: REMOTE, with an empty presentation set and the unlock
time running, the lock written unlocked. No other door changes. -/
def Obligations.Remote_Release_Opens_For_No_One : Prop :=
  ∀ (h : Head) (d : Nat) (s : State), Takes s h Code.remoteRelease →
    let v := s.door d
    let c := s.config.door d
    let r : Result :=
      if 31 < d ∨ c.node = 0 then .badParam
      else if c.cls = .strongroom then .badState
      else if doorSealed s d ∨ doorLocked s d then .badState
      else if v.state ≠ .secure ∨ v.decA ≠ none ∨ v.decB ≠ none ∨ (s.node c.node).sup ≠ .online then .badState
      else .done
    ∃ t, exec (.remoteRelease h d) s = .next t ∧ Replied t h Code.remoteRelease r [] ∧
      (r ≠ .done → { t with ports := s.ports } = s) ∧
      (r = .done →
        t.door d = { v with state := .released, kind := some .remote, pset := [], target := none, pair := none,
                            windowOver := false, timer := some c.u } ∧
        t.base (c.node * 16) = true ∧ (∀ k, k ≠ d → t.door k = s.door k) ∧ t.roster = s.roster ∧
        { t with doors := s.doors, points := s.points, loop := s.loop, loopTest := s.loopTest, ports := s.ports } = s)

/-- UNLOCK_TIME_EXPIRY, OPEN_TIME_EXPIRY and PAIR_WINDOW_EXPIRY: a RELEASED door goes SECURE with its reservation
cancelled, each slot with the grant number it had before and each grant with as many places back; an OPEN door goes
HELD-OPEN with its alarm raised or merged, where the queue has room for it; a PAIR-WAIT door goes SECURE with the pair
refused, or keeps the expiry for the decision in flight. GOOD_REPLY with the contact newly open: a RELEASED door is OPEN
with its open time running; a SECURE door whose lock an override holds unlocked opens freely; any other SECURE or
PAIR-WAIT door is FORCED, with its alarm and the occupancy-unknown flag of its inside zone. With the contact newly
closed: an OPEN, HELD-OPEN or FORCED door is SECURE, the causes of its alarms over, and where it was OPEN or HELD-OPEN
its reservation has committed: each slot in its new zone with the mark, the deadline and the grant number of R96 and
R91; and where one slot was reserved, the grant it leaves counts one less, the record of R96 is written, and a slot that
comes in under a grant in OVERSTAY brings an OVERSTAY record and, where the queue has room, an alarm. With a
request-to-exit button newly pressed: a SECURE or PAIR-WAIT door is released for no one, but not from the outer side of
a strongroom. That a CARRIED-OVER record of the commit names the grant after the change is the model's choice (log 113). -/
def Obligations.Door_Timers_End_Their_States : Prop :=
  (∀ (d : Nat) (s : State), s.serving = true →
    ((s.door d).state = .released → ∃ t, exec (.unlockTimeExpiry d) s = .next t ∧ t.door d = (s.door d).toSecure ∧
      (∀ k, k ≠ d → t.door k = s.door k) ∧
      (∀ i, i ≤ 127 → t.slot i = if (s.slot i).pendDoor = some d then slotGivenBack s i else s.slot i) ∧
      (∀ g,
        let places := (List.range 128).countP fun i =>
          decide ((s.slot i).pendDoor = some d) && decide ((s.place i).bind (·.taken) = some g)
        t.grant g = if places ≠ 0 ∧ (s.grant g).state = .overstay ∧ (s.grant g).count ≤ places then Grant.free
          else { s.grant g with count := (s.grant g).count - places }) ∧
      { t with doors := s.doors, roster := s.roster, afterHours := s.afterHours, points := s.points, loop := s.loop,
               ports := s.ports } = s) ∧
    ((s.door d).state = .open →
      let key : AlarmKey := ⟨.heldDoor, (s.config.door d).sideB, none, none, some d⟩
      (s.alarms.records.length < 32 ∨ (alarmKeyed s key).isSome = true) →
      ∃ t, exec (.openTimeExpiry d) s = .next t ∧ t.door d = { s.door d with state := .heldOpen, timer := none } ∧
        (∀ k, k ≠ d → t.door k = s.door k) ∧ (∃ r, r ∈ t.alarms.records ∧ r.key = key ∧ r.active = true) ∧
        { t with doors := s.doors, alarms := s.alarms, points := s.points, loop := s.loop, ports := s.ports } = s) ∧
    (∀ p, (s.door d).state = .pairWait → (s.door d).pair = some p →
      ∃ t, exec (.pairWindowExpiry d) s = .next t ∧
        t.door d = (if ((s.door d).dec p.side).isSome then { s.door d with windowOver := true, timer := none }
          else (s.door d).toSecure.setResp p.side (.refused .pairIncomplete)) ∧
        (∀ k, k ≠ d → t.door k = s.door k) ∧
        { t with doors := s.doors, points := s.points, loop := s.loop, ports := s.ports } = s)) ∧
  (∀ (ex : Exchange) (toggle : Bool) (d : Nat) (now : Reading) (s : State), Polled s ex → nodeType s ex.node = .door →
    doorOfNode s ex.node = some d → (s.node ex.node).input.length = 16 →
    let v := s.door d
    let r := s.config.door d
    let reply := fun (c : Nat) (now : Reading) =>
      Instr.goodReply (.ready toggle ((s.node ex.node).input.set c now) (.presentations []))
    let marked := fun (why : Refuse) (v : DoorVol) =>
      { v with decA := v.decA.map (Decision.mark why), decB := v.decB.map (Decision.mark why) }
    let empty := { v with kind := none, pset := [], target := none, pair := none, windowOver := false, timer := none }
    let others := fun (t : State) => ∀ k, k ≠ d → t.door k = s.door k
    -- the contact opens (R50, R52, R54)
    (reading s ex.node 2 = some .normal → now ≠ .normal → v.contact ≠ .open →
      (v.state = .released → ∃ t, exec (reply 2 now) s = .next t ∧
        t.door d = { v with state := .open, timer := some r.h, contact := .open } ∧ others t ∧
        { t with doors := s.doors, loop := s.loop, points := s.points, ports := s.ports } = s) ∧
      (v.state = .secure → overrideUnlocks s d = true → ∃ t, exec (reply 2 now) s = .next t ∧ others t ∧
        t.door d = marked .doorBusy { empty with state := .open, kind := some .freeOpening, timer := some r.h,
                                                 contact := .open } ∧
        { t with doors := s.doors, loop := s.loop, loopTest := s.loopTest, points := s.points, ports := s.ports } = s) ∧
      (v.state = .pairWait ∨ v.state = .secure ∧ overrideUnlocks s d = false →
        let key : AlarmKey := ⟨.forcedDoor, r.sideB, none, none, some d⟩
        ∃ t, exec (reply 2 now) s = .next t ∧ others t ∧
          t.door d = marked .tooLate { empty with state := .forced, contact := .open } ∧
          (s.alarms.records.length < 32 ∨ (alarmKeyed s key).isSome = true →
            ∃ a, a ∈ t.alarms.records ∧ a.key = key ∧ a.active = true) ∧
          (tracked s r.sideB = true → (t.zone r.sideB).occUnknown = true) ∧
          { t with doors := s.doors, zones := s.zones, alarms := s.alarms, release := s.release, loop := s.loop,
                   loopTest := s.loopTest, points := s.points, ports := s.ports } = s)) ∧
    -- the contact closes (R24, R51, R52)
    (reading s ex.node 2 ≠ some .normal → v.contact ≠ .closed → v.state = .open ∨ v.state = .heldOpen ∨ v.state = .forced →
      AlarmsSound s →
      ∃ t, exec (reply 2 .normal) s = .next t ∧ others t ∧
        t.door d = { empty with state := .secure, respA := .idle, respB := .idle, contact := .closed } ∧
        (∀ a ∈ t.alarms.records, a.key = ⟨.forcedDoor, r.sideB, none, none, some d⟩ ∨
          a.key = ⟨.heldDoor, r.sideB, none, none, some d⟩ → a.active = false) ∧
        (v.state = .forced → t.roster = s.roster) ∧
        (v.state ≠ .forced → ∀ i, i ≤ 127 →
          if (s.slot i).pendDoor = some d then
            ((s.slot i).pendZone = some 0 → t.slot i = Slot.free) ∧
            (∀ z, (s.slot i).pendZone = some z → z ≠ 0 → t.slot i = slotArrived s i z)
          else t.slot i = s.slot i) ∧
        (v.state ≠ .forced → ∀ i z, i ≤ 127 → (s.slot i).pendDoor = some d → (s.slot i).pendZone = some z →
          (∀ j, j ≤ 127 → (s.slot j).pendDoor = some d → j = i) →
          let w := s.slot i
          let admitted := (s.place i).any (·.afterHours)
          let taken := (s.place i).bind (·.taken)
          let left := ((s.place i).map (·.former)).getD w.grant
          let leaves := fun (g : Nat) => left = some g ∧ w.zone = some (s.grant g).zone
          let written := fun (kind : AuditKind) (zone : Nat) (door grant : Option Nat) =>
            (⟨s.clock.timeOfWeek, kind, zone, some w.credential, door, grant, none⟩ : AuditRec) ∈ t.afterHours.audit
          (∀ g, t.grant g =
            if leaves g then
              if (s.grant g).state = .overstay ∧ (s.grant g).count ≤ 1 then Grant.free
              else { s.grant g with count := (s.grant g).count - 1 }
            else s.grant g) ∧
          (z ≠ 0 → admitted = true → written .entry z (some d) taken) ∧
          (z ≠ 0 → admitted = false → w.mark = false → (s.zone z).afterHours = true → written .carriedOver z none taken) ∧
          (∀ y, w.mark = true → w.zone = some y → z = 0 ∨ admitted = false ∧ (s.zone z).afterHours = false →
            written .exit y (some d) w.grant) ∧
          (∀ g, taken = some g → ¬ leaves g → (s.grant g).state = .overstay →
            written .overstay (s.grant g).zone none (some g) ∧
            (s.alarms.records.length < 32 →
              ∃ a, a ∈ t.alarms.records ∧ a.key = ⟨.overstay, (s.grant g).zone, some w.credential, none, none⟩ ∧
                a.active = true))) ∧
        { t with doors := s.doors, roster := s.roster, afterHours := s.afterHours, alarms := s.alarms,
                 release := s.release, loop := s.loop, loopTest := s.loopTest, points := s.points,
                 ports := s.ports } = s) ∧
    -- the request-to-exit buttons (R53)
    (∀ c, c ≤ 1 → reading s ex.node c = some .normal →
      ∃ t, exec (reply c .active) s = .next t ∧ others t ∧
        t.door d =
          (if (v.state = .secure ∨ v.state = .pairWait) ∧ ¬ (r.cls = .strongroom ∧ c = 0) then
            marked .doorBusy { empty with
              state := .released, kind := some .exitButton, timer := some r.u
              respA := if v.pair.any (fun p => decide (p.side = .a)) then .idle else v.respA
              respB := if v.pair.any (fun p => decide (p.side = .b)) then .idle else v.respB }
          else v) ∧
        { t with doors := s.doors, loop := s.loop, loopTest := s.loopTest, points := s.points, ports := s.ports } = s))

/-- CREDENTIAL_LOOKUP_COMPLETE: a discarded decision is refused for the reason of its mark and changes nothing else of
the door, the roster or the after-hours records; an egress decision releases the door whatever the lookup found, and
abandons a pair that waits there, whose side's response returns to IDLE; an entry decision whose number no slot holds is
refused as UNKNOWN, the door staying SECURE. A presentation under duress whose record is found and enabled raises or
repeats the DURESS alarm of the person and the presenting zone, where the queue has room, a discarded one too; one
without the qualifier, and one whose record is found disabled, raise none, and of a presentation under duress whose
lookup answers NOT-FOUND or DAMAGED nothing is stated. The duress mark of the slot that holds the number follows a
presentation that is decided with its record found. That a marked decision is discarded in every door state, the door
SECURE again among them (log 13), and that the lowest slot answers where two hold the number (log 60), are the model's
choices. GOOD_REPLY with a presentation: at a SECURE or PAIR-WAIT door with no decision in flight at that reader
the decision begins and its lookup is asked for; the credential that waits as a first entrant only repeats itself; every
other presentation is refused as DOOR-BUSY. One that the node sends again, with its old toggle, is discarded. -/
def Obligations.Decisions_Follow_The_Lookup : Prop :=
  (∀ (check : ReadCheck) (l : Lookup) (dec : Decision) (s : State), s.serving = true →
    s.store.op = some (.lookup l false) → (s.door l.door).dec l.side = some dec →
    let v := s.door l.door
    let c := s.config.door l.door
    ∃ t, exec (.credentialLookupComplete check) s = .next t ∧ (t.door l.door).dec l.side = none ∧
      (∀ k, k ≠ l.door → t.door k = s.door k) ∧ (s.store.next = none → t.store.op = none) ∧
      (∀ w, dec.discard = some w → t.door l.door = (v.setDec l.side none).setResp l.side (.refused w) ∧
        t.roster = s.roster ∧ t.afterHours = s.afterHours) ∧
      (dec.discard = none → v.state = .secure ∨ v.state = .pairWait → c.isEgress l.side = true →
        (t.door l.door).state = .released ∧ (t.door l.door).kind = some .egress ∧
          (t.door l.door).pset = [dec.credential] ∧ (t.door l.door).target = some (c.beyond l.side) ∧
          (t.door l.door).timer = some c.u ∧ (t.door l.door).resp l.side = .admitted ∧ (t.door l.door).pair = none ∧
          ∀ p, v.pair = some p → p.side ≠ l.side → (t.door l.door).resp p.side = .idle) ∧
      (dec.discard = none → v.state = .secure → v.pair = none → c.isEgress l.side = false →
        (∀ e ∈ s.store.index, e.2.number ≠ some l.credential) →
        t.door l.door = (v.setDec l.side none).setResp l.side (.refused .unknown) ∧ t.roster = s.roster) ∧
      -- the duress qualifier (R19, R45, R138)
      (dec.duress = false → t.alarms = s.alarms) ∧
      (∀ slot e k, check = .clean → s.store.index.find? (fun x => x.2.number == some l.credential) = some (slot, e) →
        e.cond ≠ .damaged → (s.store.cell slot).contents = .record k →
        let key : AlarmKey := ⟨.duress, c.facing l.side, some k.number, none, none⟩
        (k.enabled = false → t.alarms = s.alarms) ∧
        (k.enabled = true → dec.duress = true → s.alarms.records.length < 32 ∨ (alarmKeyed s key).isSome = true →
          ∃ a, a ∈ t.alarms.records ∧ a.key = key ∧ a.acked = false ∧ a.active = false) ∧
        (∀ i, dec.discard = none → v.state = .secure ∨ v.state = .pairWait → holder s dec.credential = some i →
          (t.slot i).duress = dec.duress))) ∧
  (∀ (ex : Exchange) (p : Presentation) (d : Nat) (s : State), Polled s ex → AlarmsSound s → nodeType s ex.node = .door →
    doorOfNode s ex.node = some d → (s.node ex.node).input.length = 16 →
    let v := s.door d
    let again := v.state = .pairWait ∧ ∃ q, v.pair = some q ∧ q.side = p.side ∧ q.credential = p.credential
    let free := (v.state = .secure ∨ v.state = .pairWait) ∧ v.dec p.side = none
    let arrives := fun (toggle : Bool) => Instr.goodReply (.ready toggle (s.node ex.node).input (.presentations [p]))
    (∃ t, exec (arrives (s.node ex.node).toggle) s = .next t ∧ (∀ k, k ≠ d → t.door k = s.door k) ∧
      (again → t.door d = v.setResp p.side .idle ∧ t.store = s.store) ∧
      (¬ again → free →
        t.door d = (v.setResp p.side .idle).setDec p.side (some ⟨p.credential, p.duress, 0, none⟩) ∧
          (t.store.op = some (.lookup ⟨d, p.side, p.credential⟩ false) ∨ ⟨d, p.side, p.credential⟩ ∈ t.store.class1)) ∧
      (¬ again → ¬ free → t.door d = v.setResp p.side (.refused .doorBusy) ∧ t.store = s.store) ∧
      { t with doors := s.doors, store := s.store, roster := s.roster, alarms := s.alarms, loop := s.loop,
               points := s.points, ports := s.ports } = s) ∧
    (∃ t, exec (arrives (!(s.node ex.node).toggle)) s = .next t ∧ { t with loop := s.loop, ports := s.ports } = s))

/-- The checks of an entry decision at a door that is not a strongroom door, with the record found whole: disabled,
egress-only, lockdown, permission, passback, after-hours admission, room in the zone and the roster, in that order, and
otherwise the release for the presented credential, a person outside being reserved into a tracked zone, and an entrant
admitted under a grant taking a place of it. At a strongroom door the first entrant is asked the admission question in
its pair-first form, must leave time in the window, and brings PAIR-WAIT with the rest of the window running; the second
entrant is asked with the first, in the pair form, must not find the first in a passage, and completes the pair where
one of the two is a CUSTODIAN: the door is released for both, both responses are ADMITTED, and each takes a place of the
grant under which it is admitted. A refused second entrant leaves the pair waiting; the second entrant whose window has
run out during its lookup is left out. That the pair record keeps the first entrant's right and duress qualifier, and
that the pair form is asked with that right (log 12), and that the lowest slot answers where two hold the number
(log 60), are the model's choices. -/
def Obligations.Entry_Checks_Keep_Their_Order : Prop :=
  -- a slot is reserved for the entrant (R22)
  let enters := fun (s : State) (z n : Nat) => match position s n with
    | .outside => tracked s z
    | .inZone y => !(y == z)
    | .inPassage => false
  (∀ (l : Lookup) (dec : Decision) (c : Credential) (slot : Nat) (e : IndexEntry) (s : State), s.serving = true →
    s.store.op = some (.lookup l false) → (s.door l.door).dec l.side = some dec → dec.discard = none →
    (s.door l.door).state = .secure → (s.door l.door).pair = none → (s.config.door l.door).cls ≠ .strongroom →
    (s.config.door l.door).isEgress l.side = false →
    s.store.index.find? (fun x => x.2.number == some l.credential) = some (slot, e) → e.cond ≠ .damaged →
    (s.store.cell slot).contents = .record c →
    let r := s.config.door l.door
    let z := r.beyond l.side
    let why : Option Refuse :=
      if c.enabled = false then some .unknown
      else if zoneSealed s z then some .sealed
      else if zoneLocked s z then some .lockdown
      else if c.perms.getLsbD z = false then some .noPermit
      else if passbackCheck s r l.side c = none then some .passback
      else if keptAfterHours s z ∧ admitOne s z c.number c.right = .refused then some .afterHours
      else fitCheck s z [c.number]
    let under := if keptAfterHours s z then (admitOne s z c.number c.right).grant else none
    ∃ t, exec (.credentialLookupComplete .clean) s = .next t ∧ (t.door l.door).dec l.side = none ∧
      match why with
      | some w => (t.door l.door).state = .secure ∧ (t.door l.door).resp l.side = .refused w
      | none => (t.door l.door).state = .released ∧ (t.door l.door).kind = some .entry ∧
          (t.door l.door).pset = [dec.credential] ∧ (t.door l.door).target = some z ∧
          (t.door l.door).timer = some r.u ∧ (t.door l.door).resp l.side = .admitted ∧
          (∀ g, t.grant g =
            if under = some g ∧ enters s z c.number = true then { s.grant g with count := (s.grant g).count + 1 } else s.grant g) ∧
          (position s c.number = .outside → tracked s z = true →
            ∃ i, i ≤ 127 ∧ (t.slot i).state = .pendingEntry ∧ (t.slot i).credential = c.number ∧
              (t.slot i).pendZone = some z ∧ (t.slot i).pendDoor = some l.door ∧ (t.slot i).grant = under ∧
              (t.slot i).mark = keptAfterHours s z)) ∧
  (∀ (l : Lookup) (dec : Decision) (c : Credential) (slot : Nat) (e : IndexEntry) (s : State), s.serving = true →
    s.store.op = some (.lookup l false) → (s.door l.door).dec l.side = some dec → dec.discard = none →
    (s.config.door l.door).cls = .strongroom → (s.config.door l.door).isEgress l.side = false →
    s.store.index.find? (fun x => x.2.number == some l.credential) = some (slot, e) → e.cond ≠ .damaged →
    (s.store.cell slot).contents = .record c →
    let r := s.config.door l.door
    let z := r.beyond l.side
    let v := s.door l.door
    let early : Option Refuse :=
      if c.enabled = false then some .unknown
      else if zoneSealed s z then some .sealed
      else if zoneLocked s z then some .lockdown
      else if c.perms.getLsbD z = false then some .noPermit
      else if passbackCheck s r l.side c = none then some .passback
      else none
    (v.state = .secure → v.pair = none →
      let why := early.or
        (if keptAfterHours s z ∧ admitFirst s z c.number c.right = false then some .afterHours
         else (fitCheck s z [c.number]).or (if r.w ≤ dec.age then some .pairIncomplete else none))
      ∃ t, exec (.credentialLookupComplete .clean) s = .next t ∧ (t.door l.door).dec l.side = none ∧
        match why with
        | some w => (t.door l.door).state = .secure ∧ (t.door l.door).resp l.side = .refused w
        | none => (t.door l.door).state = .pairWait ∧ (t.door l.door).timer = some (r.w - dec.age) ∧
            (t.door l.door).pair = some ⟨dec.credential, c.cls, l.side, z, c.right, dec.duress⟩ ∧
            (t.door l.door).resp l.side = .waitSecond) ∧
    (∀ p, v.state = .pairWait → v.pair = some p → v.windowOver = false →
      let why := early.or
        (if position s p.credential = .inPassage then some .passback
         else if keptAfterHours s z ∧ admitPair s z p.credential p.right c.number c.right = none then some .afterHours
         else (fitCheck s z [p.credential, c.number]).or
           (if p.cls = .custodian ∨ c.cls = .custodian then none else some .noCustodian))
      ∃ t, exec (.credentialLookupComplete .clean) s = .next t ∧ (t.door l.door).dec l.side = none ∧
        match why with
        | some w => (t.door l.door).state = .pairWait ∧ (t.door l.door).pair = some p ∧ (t.door l.door).timer = v.timer ∧
            (t.door l.door).resp l.side = .refused w
        | none => (t.door l.door).state = .released ∧ (t.door l.door).kind = some .entry ∧
            (t.door l.door).pset = [p.credential, dec.credential] ∧ (t.door l.door).target = some z ∧
            (t.door l.door).timer = some r.u ∧ (t.door l.door).pair = none ∧
            (t.door l.door).respA = .admitted ∧ (t.door l.door).respB = .admitted ∧
            (p.credential ≠ c.number → keptAfterHours s z = true → ∀ a b,
              admitPair s z p.credential p.right c.number c.right = some (a, b) → ∀ g,
              t.grant g = { s.grant g with count := (s.grant g).count +
                (if a.grant = some g ∧ enters s z p.credential = true then 1 else 0) +
                (if b.grant = some g ∧ enters s z c.number = true then 1 else 0) }) ∧
            ∀ n ∈ [p.credential, c.number], position s n = .outside → tracked s z = true →
              ∃ i, i ≤ 127 ∧ (t.slot i).state = .pendingEntry ∧ (t.slot i).credential = n ∧
                (t.slot i).pendZone = some z ∧ (t.slot i).pendDoor = some l.door))

/-! ### The credential store (04) and pendants (07) -/

/-- READ_CREDENTIAL, WRITE_CREDENTIAL, ERASE_CREDENTIAL and MODIFY_CREDENTIAL: on a busy store the operation waits in
its port's place; on an IDLE store with nothing waiting it is refused by the window, the protection, the slot's
condition or a duplicate, in that order, or holds the store. A slot above 511, a malformed record, and a list of changes
that is empty, has more than 8 or holds a malformed one are refused as the request is taken; no other request is. -/
def Obligations.Store_Requests_Wait_Or_Begin : Prop :=
  (∀ (c : Instr) (h : Head) (code : Nat) (op : PortOp) (s : State), storeRequest c = some (h, code, op) → Takes s h code →
    let e := s.store.entry op.slot
    let fenced : Option Result :=
      if h.port = .access ∧ (op.slot < s.config.windowLow ∨ s.config.windowHigh < op.slot) then some .outOfWindow
      else if h.port = .access ∧ e.guarded then some .guarded
      else none
    let stop : Option Result := match op with
      | .read _ => none
      | .write i k => fenced.or (if s.store.duplicate i k then some .badParam else none)
      | .erase _ => fenced
      | .modify _ _ =>
        fenced.or (if e.cond = .damaged then some .damaged else if e.cond = .empty then some .notFound else none)
    ∃ t, exec c s = .next t ∧ { t with store := s.store, ports := s.ports } = s ∧
      (s.store.op ≠ none → t.store = s.store.setWaiting h.port (some op) ∧
        (t.port h.port).inFlight = some ⟨h.tag, code, false, .store⟩) ∧
      (s.store.op = none → s.store.next = none →
        match stop with
        | some r => t.store = s.store ∧ Replied t h code r [] ∧ (t.port h.port).inFlight = none
        | none => t.store = { s.store with op := some (.port h.port op) } ∧
            (t.port h.port).inFlight = some ⟨h.tag, code, false, .store⟩)) ∧
  (∀ (h : Head) (slot : Nat) (raw : RawCredential) (changes : List FieldChange) (s : State),
    let badNumber := fun n => n = 0 ∨ 16777214 < n
    let badRecord := badNumber raw.number ∨ 4 < raw.cls ∨ 2 < raw.right ∨ raw.perms.getLsbD 0 = true
    let badChange := fun (c : FieldChange) => match c with
      | .number n => badNumber n
      | .cls k => 4 < k
      | .perms zs => zs.getLsbD 0 = true
      | .right k => 2 < k
      | .undefined _ => True
      | .pendant _ | .enabled _ | .exempt _ | .guarded _ => False
    let badChanges := changes = [] ∨ 8 < changes.length ∨ ∃ c ∈ changes, badChange c
    (511 < slot → Takes s h Code.readCredential →
      AnswersOnly (.readCredential h slot) s h Code.readCredential .badParam []) ∧
    (511 < slot → Takes s h Code.eraseCredential →
      AnswersOnly (.eraseCredential h slot) s h Code.eraseCredential .badParam []) ∧
    (511 < slot ∨ badRecord → Takes s h Code.writeCredential →
      AnswersOnly (.writeCredential h slot raw) s h Code.writeCredential .badParam []) ∧
    (511 < slot ∨ badChanges → Takes s h Code.modifyCredential →
      AnswersOnly (.modifyCredential h slot changes) s h Code.modifyCredential .badParam []) ∧
    (slot ≤ 511 → storeRequest (.readCredential h slot) ≠ none ∧ storeRequest (.eraseCredential h slot) ≠ none ∧
      (¬ badRecord → storeRequest (.writeCredential h slot raw) ≠ none) ∧
      (¬ badChanges → storeRequest (.modifyCredential h slot changes) ≠ none)))

/-- READ_CREDENTIAL_COMPLETE, WRITE_CREDENTIAL_COMPLETE, ERASE_CREDENTIAL_COMPLETE and MODIFY_CREDENTIAL_COMPLETE, with
nothing waiting: what each leaves in its slot and in the index, what it answers, and that no other slot changes. The
Access Port never sets the protected field. A clean read of an EMPTY slot answers DONE with zeros, and a read of a DAMAGED
slot its remembered number, whatever the check: the zeros and the layout of these results are the model's choice (log
36). That a record whose read finds a double error answers with its number, as a DAMAGED slot does, is so too (log 98). A
Modify whose read finds a double error is refused as DAMAGED and leaves the slot so, and one
whose numbers another slot holds as BAD-PARAM, the error of its read corrected. -/
def Obligations.Store_Operations_Write_One_Slot : Prop :=
  ∀ (p : Port) (f : InFlight) (op : PortOp) (s : State), s.serving = true → (s.port p).inFlight = some f →
    s.store.op = some (.port p op) → s.store.next = none →
    let kept := fun (t : State) (i : Nat) (k : Cell) (e : IndexEntry) =>
      t.store.cell i = k ∧ t.store.entry i = e ∧
        (∀ j, j ≠ i → t.store.cell j = s.store.cell j ∧ t.store.entry j = s.store.entry j) ∧
        { t.store with cells := s.store.cells, index := s.store.index, op := s.store.op } = s.store ∧
        t.store.op = none ∧ (t.port p).inFlight = none ∧ { t with store := s.store, ports := s.ports } = s
    (∀ i c, op = .read i → (s.store.entry i).cond ≠ .damaged → (s.store.cell i).contents = .record c →
      (∃ t, exec (.readCredentialComplete .clean) s = .next t ∧ Answered t p f .done (c.vals ++ storeCounts s) ∧
        kept t i (s.store.cell i) (s.store.entry i)) ∧
      (∃ t, exec (.readCredentialComplete .double) s = .next t ∧
        kept t i { s.store.cell i with marker := true }
          { s.store.entry i with cond := .damaged, guarded := (s.store.entry i).guarded || (s.store.entry i).number.isNone } ∧
        Answered t p f .damaged (Val.opt24 (s.store.entry i).number :: storeCounts t))) ∧
    (∀ i c, op = .write i c → ∃ t, exec .writeCredentialComplete s = .next t ∧
      let k : Credential := if p = .access then { c with guarded := false } else c
      Answered t p f (if p = .access ∧ c.guarded = true then .doneClamped else .done) [] ∧
        kept t i ⟨false, .record k⟩ ⟨.inUse, some k.number, some k.pendant, k.guarded⟩) ∧
    (∀ i, op = .erase i → ∃ t, exec .eraseCredentialComplete s = .next t ∧ Answered t p f .done [] ∧
      kept t i ⟨false, .empty⟩ ⟨.empty, none, none, false⟩) ∧
    (∀ i cs old new, op = .modify i cs → (s.store.cell i).contents = .record old →
      let applied := if p = .access then cs.filter (fun c => !decide (c = .guarded true)) else cs
      applyChanges applied old = some new → s.store.duplicate i new = false →
      ∃ t, exec (.modifyCredentialComplete .clean) s = .next t ∧
        Answered t p f (if applied.length = cs.length then .done else .doneClamped) [] ∧
        kept t i ⟨false, .record new⟩ ⟨.inUse, some new.number, some new.pendant, new.guarded⟩) ∧
    (∀ i check, op = .read i → (s.store.entry i).cond = .damaged →
      ∃ t, exec (.readCredentialComplete check) s = .next t ∧
        Answered t p f .damaged (Val.opt24 (s.store.entry i).number :: storeCounts s) ∧
        kept t i (s.store.cell i) (s.store.entry i)) ∧
    (∀ i, op = .read i → (s.store.entry i).cond ≠ .damaged → (s.store.cell i).contents = .empty →
      ∃ t, exec (.readCredentialComplete .clean) s = .next t ∧
        Answered t p f .done ([.u24 0, .u8 0, .u16 0, .u8 0, .u16 0, .u8 0, .u8 0, .u8 0] ++ storeCounts s) ∧
        kept t i (s.store.cell i) (s.store.entry i)) ∧
    (∀ i cs old, op = .modify i cs → (s.store.cell i).contents = .record old →
      let applied := if p = .access then cs.filter (fun c => !decide (c = .guarded true)) else cs
      (∃ t, exec (.modifyCredentialComplete .double) s = .next t ∧ Answered t p f .damaged [] ∧
        kept t i { s.store.cell i with marker := true }
          { s.store.entry i with cond := .damaged, guarded := (s.store.entry i).guarded || (s.store.entry i).number.isNone }) ∧
      (∀ new, applyChanges applied old = some new → s.store.duplicate i new = true →
        (∃ t, exec (.modifyCredentialComplete .clean) s = .next t ∧ Answered t p f .badParam [] ∧
          kept t i (s.store.cell i) (s.store.entry i)) ∧
        ∃ t, exec (.modifyCredentialComplete .single) s = .next t ∧ Answered t p f .badParam [] ∧
          t.store = { s.store with op := none, corrected := min 65535 (s.store.corrected + 1) } ∧
          (t.port p).inFlight = none ∧ { t with store := s.store, ports := s.ports } = s))

/-- STORE_GRANT: a store that is held is left alone; an IDLE one is granted to the scrubber's forced turn, then to the
oldest lookup of a decision, then to the oldest lookup of a pendant, then to the Console Port, the Fire Port and the
Access Port, and to the scrubber last. The operation of a port is checked at the grant, against the store as it stands:
one that the window, the protection, the slot's condition or a duplicate refuses is answered and holds nothing. -/
def Obligations.Store_Grants_By_Class : Prop :=
  ∀ s : State, s.serving = true →
    let refused := fun (p : Port) (op : PortOp) =>
      let e := s.store.entry op.slot
      let fenced : Option Result :=
        if p = .access ∧ (op.slot < s.config.windowLow ∨ s.config.windowHigh < op.slot) then some .outOfWindow
        else if p = .access ∧ e.guarded then some .guarded
        else none
      (match op with
      | .read _ => none
      | .write i k => fenced.or (if s.store.duplicate i k then some .badParam else none)
      | .erase _ => fenced
      | .modify _ _ =>
        fenced.or (if e.cond = .damaged then some .damaged else if e.cond = .empty then some .notFound else none) :
        Option Result)
    let ahead := fun (p : Port) => match p with
      | .console => true
      | .fire => s.store.waitConsole.isNone
      | .access => s.store.waitConsole.isNone && s.store.waitFire.isNone
    ∃ t, exec .storeGrant s = .next t ∧ { t with store := s.store, ports := s.ports } = s ∧
      (s.store.op ≠ none → t.store = s.store) ∧
      (∀ l rest, s.store.op = none → (s.store.scrubber.waiting && s.store.scrubber.forced) = false →
        s.store.class1 = l :: rest → t.store = { s.store with op := some (.lookup l false), class1 := rest }) ∧
      (∀ c rest, s.store.op = none → (s.store.scrubber.waiting && s.store.scrubber.forced) = false →
        s.store.class1 = [] → s.store.class2 = c :: rest →
        t.store = { s.store with op := some (.pendant c), class2 := rest }) ∧
      (∀ p op, s.store.op = none → (s.store.scrubber.waiting && s.store.scrubber.forced) = false →
        s.store.class1 = [] → s.store.class2 = [] → s.store.waiting p = some op → ahead p = true →
        (refused p op = none → t.store = { s.store.setWaiting p none with op := some (.port p op) } ∧
          (t.port p).inFlight = (s.port p).inFlight) ∧
        (∀ why f, refused p op = some why → (s.port p).inFlight = some f →
          Answered t p f why [] ∧ (t.port p).inFlight = none ∧
            ((s.store.setWaiting p none).next = none → t.store = s.store.setWaiting p none))) ∧
      (s.store.op = none → s.store.scrubber.waiting = true → s.store.scrubber.forced = false → s.store.class1 = [] →
        s.store.class2 = [] → s.store.waitConsole = none → s.store.waitFire = none → s.store.waitAccess = none →
        s.store.scrubber.position ≤ 511 → (s.store.entry s.store.scrubber.position).cond ≠ .damaged →
        t.store = { s.store with
          op := some (.scrub s.store.scrubber.position)
          scrubber := { s.store.scrubber with waiting := false, waited := 0 } }) ∧
      (s.store.op = none → s.store.scrubber.waiting = true → s.store.scrubber.forced = true →
        s.store.scrubber.position ≤ 511 → (s.store.entry s.store.scrubber.position).cond ≠ .damaged →
        t.store = { s.store with
          op := some (.scrub s.store.scrubber.position)
          scrubber := { s.store.scrubber with waiting := false, waited := 0, forced := false } })

/-- SCRUB_INTERVAL_EXPIRY, FORCED_TURN and SCRUB_STEP_COMPLETE: the scrubber asks for a turn and takes it on an IDLE
store, a forced turn is marked, and a step leaves its slot corrected, damaged or as it was, moves on by one slot and
starts the interval again. -/
def Obligations.Scrubber_Walks_The_Slots : Prop :=
  ∀ s : State, s.serving = true →
    (s.store.scrubber.interval.isSome = true →
      ∃ t, exec .scrubIntervalExpiry s = .next t ∧ { t with store := s.store, ports := s.ports } = s ∧
        (s.store.op ≠ none → t.store = { s.store with
          scrubber := { s.store.scrubber with interval := none, waiting := true, waited := 0 } }) ∧
        (s.store.op = none → s.store.next = none → s.store.scrubber.position ≤ 511 →
          (s.store.entry s.store.scrubber.position).cond ≠ .damaged →
          t.store = { s.store with op := some (.scrub s.store.scrubber.position),
                                   scrubber := ⟨s.store.scrubber.position, none, false, 0, false⟩ })) ∧
    (s.store.scrubber.waiting = true →
      ∃ t, exec .forcedTurn s = .next t ∧ { t with store := s.store, ports := s.ports } = s ∧
        t.store = { s.store with scrubber := { s.store.scrubber with forced := true } }) ∧
    (∀ i check, s.store.op = some (.scrub i) → s.store.next = none → (s.store.cell i).contents ≠ .unreadable →
      ∃ t, exec (.scrubStepComplete check) s = .next t ∧ { t with store := s.store, ports := s.ports } = s ∧
        t.store.op = none ∧
        t.store.scrubber = { s.store.scrubber with position := (i + 1) % 512,
                                                   interval := some (scrubInterval s) } ∧
        t.store.corrected = (if check = .single then min 65535 (s.store.corrected + 1) else s.store.corrected) ∧
        t.store.cell i = (if check = .double then { s.store.cell i with marker := true } else s.store.cell i) ∧
        ((t.store.entry i).cond = if check = .double then .damaged else (s.store.entry i).cond) ∧
        (∀ j, j ≠ i → t.store.cell j = s.store.cell j ∧ t.store.entry j = s.store.entry j))

/-- PENDANT_LOOKUP_COMPLETE, with no record of the same key and room in the queue: a pendant whose number no slot holds
raises an unlocated alarm in the receiver's zone, and one whose wearer stands on the roster an alarm that names the
person. The record is RAISED at level 0, active, and heard; no other record changes, and the pending arrival is gone.
That the lowest slot answers where two hold the pendant's number is the model's choice (log 60).
With 32 records queued, the ACKNOWLEDGED record of lowest priority, the earliest raised of them, gives place unless its
priority is higher; otherwise the arrival is not queued, the overflow count rises, and an unlocated one leaves its
zone's occupancy-unknown flag set. GOOD_REPLY with a pendant report: a hearing restarts the silence timer of the record,
a report that waits already is folded, and any other waits for its lookup. -/
def Obligations.Pendant_Calls_Become_Alarms : Prop :=
  (∀ (check : ReadCheck) (c : PendantCall) (person : Option Nat) (s : State), s.serving = true →
    s.store.op = some (.pendant c) →
    (match person with
      | none => ∀ e ∈ s.store.index, e.2.pendant ≠ some c.pendant
      | some n => check = .clean ∧ c.pendant ≠ 0 ∧ ∃ slot e k i z,
          s.store.index.find? (fun x => x.2.pendant == some c.pendant) = some (slot, e) ∧ e.cond ≠ .damaged ∧
            (s.store.cell slot).contents = .record k ∧ k.number = n ∧ holder s n = some i ∧ (s.slot i).zone = some z) →
    let key : AlarmKey := ⟨.pendant, c.zone, person, some c.pendant, none⟩
    alarmKeyed s key = none → s.alarms.records.length < 32 →
    ∃ t r, exec (.pendantLookupComplete check) s = .next t ∧ r ∈ t.alarms.records ∧ r.key = key ∧
      r.unlocated = person.isNone ∧ r.acked = false ∧ r.active = true ∧ r.level = 0 ∧ r.repeats = 1 ∧
      r.raised = s.clock.timeOfWeek ∧ r.silence = some 30 ∧ r.escalation = some (escalationPeriod s) ∧
      t.alarms.records.filter (fun x => !decide (x.key = key)) = s.alarms.records ∧
      t.alarms.arrivals = s.alarms.arrivals.erase c ∧ (s.store.next = none → t.store.op = none) ∧
      { t with store := s.store, alarms := s.alarms, release := s.release, loop := s.loop, loopTest := s.loopTest,
               points := s.points, ports := s.ports } = s) ∧
  (∀ (check : ReadCheck) (c : PendantCall) (s : State), s.serving = true → AlarmsSound s →
    s.store.op = some (.pendant c) → (∀ e ∈ s.store.index, e.2.pendant ≠ some c.pendant) →
    let key : AlarmKey := ⟨.pendant, c.zone, none, some c.pendant, none⟩
    let acked := s.alarms.records.filter fun r => r.acked
    alarmKeyed s key = none → s.alarms.records.length = 32 →
    ((∀ r ∈ acked, r.key.kind.priority < 2) →
      ∃ t, exec (.pendantLookupComplete check) s = .next t ∧ t.alarms.records = s.alarms.records ∧
        t.alarms.overflow = min 255 (s.alarms.overflow + 1) ∧
        (tracked s c.zone = true → (t.zone c.zone).occUnknown = true) ∧
        { t with store := s.store, alarms := s.alarms, zones := s.zones, release := s.release, loop := s.loop,
                 loopTest := s.loopTest, points := s.points, ports := s.ports } = s) ∧
    (∀ front v back, acked = front ++ v :: back → (∀ r ∈ front, r.key.kind.priority < v.key.kind.priority) →
      (∀ r ∈ back, r.key.kind.priority ≤ v.key.kind.priority) → 2 ≤ v.key.kind.priority →
      ∃ t r, exec (.pendantLookupComplete check) s = .next t ∧ r ∈ t.alarms.records ∧ r.key = key ∧
        r.unlocated = true ∧ r.acked = false ∧ r.active = true ∧ t.alarms.overflow = s.alarms.overflow ∧
        t.alarms.records.filter (fun x => !decide (x.key = key)) =
          s.alarms.records.filter (fun x => !(x.number == v.number)) ∧
        { t with store := s.store, alarms := s.alarms, release := s.release, loop := s.loop, loopTest := s.loopTest,
                 points := s.points, ports := s.ports } = s)) ∧
  (∀ (ex : Exchange) (p : Nat) (s : State), Polled s ex → nodeType s ex.node = .pendant →
    (s.node ex.node).input.length = 16 →
    let c : PendantCall := ⟨p, (s.config.node ex.node).zone⟩
    ∃ t, exec (.goodReply (.ready (s.node ex.node).toggle (s.node ex.node).input (.reports [p]))) s = .next t ∧
      (∀ r, heardRecord s c = some r →
        t.alarms = { s.alarms with records := s.alarms.records.map fun x =>
          if x.number = r.number then { r with silence := some 30 } else x } ∧ t.store = s.store) ∧
      (heardRecord s c = none → c ∈ s.alarms.arrivals → t.alarms = s.alarms ∧ t.store = s.store) ∧
      (heardRecord s c = none → c ∉ s.alarms.arrivals →
        t.alarms = { s.alarms with arrivals := s.alarms.arrivals ++ [c] } ∧
          (t.store.op = some (.pendant c) ∨ c ∈ t.store.class2)) ∧
      { t with store := s.store, alarms := s.alarms, loop := s.loop, ports := s.ports } = s)

/-! ### After-hours access (05) -/

/-- GRANT_ESCORT: the refusals in the order of the rule (a zone or an escort out of range, an untracked zone; the time
unknown; a LIVE grant of the same escort and zone; no FREE grant), each of which changes nothing beyond the ports. Taken,
the FREE grant of lowest number becomes LIVE with the duration and the number of entrants brought into range, the reply
names it and its expiry, and a GRANT-OPENED record is written. No other grant changes. -/
def Obligations.Grant_Escort_Takes_The_Lowest : Prop :=
  ∀ (h : Head) (zone escort duration entrants : Nat) (s : State), Takes s h Code.grantEscort →
    let answers := fun (r : Result) =>
      AnswersOnly (.grantEscort h zone escort duration entrants) s h Code.grantEscort r []
    let inRange := 1 ≤ zone ∧ zone ≤ 15 ∧ tracked s zone = true ∧ 1 ≤ escort ∧ escort ≤ 16777214
    let standing := ∃ k, 1 ≤ k ∧ k ≤ 16 ∧ (s.grant k).state = .live ∧ (s.grant k).zone = zone ∧
      (s.grant k).escort = escort
    (¬ inRange → answers .badParam) ∧
    (inRange → s.clock.timeKnown = false → answers .badState) ∧
    (inRange → s.clock.timeKnown = true → standing → answers .badState) ∧
    (inRange → s.clock.timeKnown = true → ¬ standing → (∀ k, 1 ≤ k → k ≤ 16 → (s.grant k).state ≠ .free) →
      answers .full) ∧
    ∀ g, inRange → s.clock.timeKnown = true → ¬ standing →
    1 ≤ g → g ≤ 16 → (s.grant g).state = .free → (∀ k, 1 ≤ k → k < g → (s.grant k).state ≠ .free) →
    let d := max 15 (min 720 duration)
    let m := max 1 (min 8 entrants)
    let expiry := (s.clock.timeOfWeek + d) % 10080
    let r : AuditRec := ⟨s.clock.timeOfWeek, .grantOpened, zone, some escort, none, some g, none⟩
    ∃ t, exec (.grantEscort h zone escort duration entrants) s = .next t ∧
      t.grant g = ⟨.live, zone, escort, expiry, m, 0⟩ ∧ (∀ k, k ≠ g → t.grant k = s.grant k) ∧
      Replied t h Code.grantEscort (if d = duration ∧ m = entrants then .done else .doneClamped) [.u8 g, .u16 expiry] ∧
      { t.afterHours with grants := s.afterHours.grants } = s.afterHours.append r ∧
      { t with afterHours := s.afterHours, ports := s.ports } = s

/-- GRANT_EXPIRY and REVOKE_GRANT: a LIVE grant without entrants becomes FREE, with a GRANT-ENDED record, one with
entrants OVERSTAY, with an OVERSTAY record and, where the queue has room, an alarm that names the grant for each
occupant that counts for it, and no other grant and no roster slot changes; a request for a grant outside 1..16, for a
FREE grant or for one in OVERSTAY ends nothing. The two clauses of GRANT_EXPIRY are the model's choice (log 4): at the
minute of the expiry it ends that grant alone, and at the minute before it is the minute step that reaches the expiry.
-/
def Obligations.Grants_End_By_Expiry_Or_Revocation : Prop :=
  ∀ (h : Head) (g : Nat) (s : State),
    let counts := fun (i : Nat) => decide ((s.slot i).grant = some g) && decide ((s.slot i).zone = some (s.grant g).zone)
    let ended := fun (c : Instr) (t : State) =>
      exec c s = .next t ∧
        t.grant g = (if (s.grant g).count = 0 then Grant.free else { s.grant g with state := .overstay }) ∧
        (∀ k, k ≠ g → t.grant k = s.grant k) ∧ t.afterHours.places = s.afterHours.places ∧
        ((s.grant g).count = 0 → t.afterHours.audit = (s.afterHours.append
          ⟨s.clock.timeOfWeek, .grantEnded, (s.grant g).zone, none, none, some g, none⟩).audit ∧ t.alarms = s.alarms) ∧
        (∀ i, i ≤ 127 → (s.grant g).count ≠ 0 → counts i = true →
          (⟨s.clock.timeOfWeek, .overstay, (s.grant g).zone, some (s.slot i).credential, none, some g, none⟩ : AuditRec) ∈
            t.afterHours.audit ∧
          (s.alarms.records.length + (List.range 128).countP counts ≤ 32 →
            ∃ a, a ∈ t.alarms.records ∧ a.key = ⟨.overstay, (s.grant g).zone, some (s.slot i).credential, none, none⟩ ∧
              a.active = true ∧ a.grant = some g)) ∧
        { t with afterHours := s.afterHours, alarms := s.alarms, release := s.release, loop := s.loop,
                 loopTest := s.loopTest, points := s.points, ports := s.ports } = s
    (s.serving = true → (s.grant g).state = .live → (s.grant g).expiry = s.clock.timeOfWeek →
      s.clock.timeOfWeek ≤ 10079 → ∃ t, ended (.grantExpiry g) t) ∧
    (s.serving = true → (s.grant g).state = .live → (s.grant g).expiry = (s.clock.timeOfWeek + 1) % 10080 →
      exec (.grantExpiry g) s = exec .minuteStep s) ∧
    (Takes s h Code.revokeGrant → 1 ≤ g → g ≤ 16 → (s.grant g).state = .live →
      ∃ t, ended (.revokeGrant h g) t ∧ Replied t h Code.revokeGrant .done []) ∧
    (Takes s h Code.revokeGrant → g = 0 ∨ 16 < g → AnswersOnly (.revokeGrant h g) s h Code.revokeGrant .badParam []) ∧
    (Takes s h Code.revokeGrant → 1 ≤ g → g ≤ 16 → (s.grant g).state = .free →
      AnswersOnly (.revokeGrant h g) s h Code.revokeGrant .notFound []) ∧
    (Takes s h Code.revokeGrant → 1 ≤ g → g ≤ 16 → (s.grant g).state = .overstay →
      AnswersOnly (.revokeGrant h g) s h Code.revokeGrant .done [])

/-- CHECK_IN_DEADLINE_REACHED and GRACE_END, at the point of the deadline: a deadline in stage DUE moves on by the grace
of its zone, keeping its tick phase; at the end of the grace the stage is MISSED and the alarm for that person in that
zone is active, where the queue has room for it. Before its point is reached a deadline stays. GOOD_REPLY with a
presentation at a reader that faces the person's zone, or with a check-in button of the zone newly pressed, begins the
deadline of each after-hours occupant concerned afresh, and of no one else. -/
def Obligations.Check_Ins_Pass_Their_Stages : Prop :=
  (∀ (i z : Nat) (d : Deadline) (s : State), s.serving = true → (s.slot i).deadline = some d → (s.slot i).zone = some z →
    d.minute = s.clock.timeOfWeek → d.phase = s.clock.minuteTimer →
    (d.stage = .due → ∃ t, exec (.checkInDeadlineReached i) s = .next t ∧
      t.slot i = { s.slot i with
        deadline := some ⟨(d.minute + (s.config.zone z).grace) % 10080, d.phase, .grace⟩ } ∧
      (∀ k, k ≠ i → t.slot k = s.slot k) ∧ { t with roster := s.roster, ports := s.ports } = s) ∧
    (d.stage = .grace →
      let key : AlarmKey := ⟨.missedCheckIn, z, some (s.slot i).credential, none, none⟩
      (s.alarms.records.length < 32 ∨ (alarmKeyed s key).isSome = true) →
      ∃ t, exec (.graceEnd i) s = .next t ∧
        t.slot i = { s.slot i with deadline := some ⟨d.minute, d.phase, .missed⟩ } ∧
        (∀ k, k ≠ i → t.slot k = s.slot k) ∧ (∃ r, r ∈ t.alarms.records ∧ r.key = key ∧ r.active = true) ∧
        { t with roster := s.roster, alarms := s.alarms, ports := s.ports } = s)) ∧
  (∀ (c : Instr) (i : Nat) (d : Deadline) (s : State), s.serving = true → (s.slot i).deadline = some d →
    d.minute ≠ s.clock.timeOfWeek ∨ d.phase ≠ s.clock.minuteTimer → c = .checkInDeadlineReached i ∨ c = .graceEnd i →
    ∃ t, exec c s = .next t ∧ { t with ports := s.ports } = s) ∧
  (∀ (ex : Exchange) (s : State), Polled s ex → (s.node ex.node).input.length = 16 →
    let afresh := fun (v : Slot) (z : Nat) => { v with
      deadline := if (s.config.zone z).interval = 0 then none
        else some ⟨(s.clock.timeOfWeek + (s.config.zone z).interval) % 10080, s.clock.minuteTimer, .due⟩ }
    (∀ (p : Presentation) (d i z : Nat), nodeType s ex.node = .door → doorOfNode s ex.node = some d →
      holder s p.credential = some i → (s.config.door d).facing p.side = z → (s.slot i).zone = some z →
      (s.slot i).mark = true → (s.slot i).deadline.isSome = true →
      ∃ t, exec (.goodReply (.ready (s.node ex.node).toggle (s.node ex.node).input (.presentations [p]))) s = .next t ∧
        t.slot i = afresh (s.slot i) z ∧ ∀ k, k ≠ i → t.slot k = s.slot k) ∧
    (∀ (c : Nat) (toggle : Bool), nodeType s ex.node = .station → circuitFn s ex.node c = .checkIn → c ≤ 15 →
      reading s ex.node c = some .normal →
      let z := (s.config.node ex.node).zone
      ∃ t, exec (.goodReply (.ready toggle ((s.node ex.node).input.set c .active) (.presentations []))) s = .next t ∧
        (∀ i, i ≤ 127 → t.slot i =
          if (s.slot i).zone = some z ∧ (s.slot i).mark = true ∧ (s.slot i).deadline.isSome = true
          then afresh (s.slot i) z else s.slot i) ∧
        { t with roster := s.roster, alarms := s.alarms, release := s.release, loop := s.loop, loopTest := s.loopTest,
                 points := s.points, ports := s.ports } = s))

/-! ### The release controller (06) -/

/-- CONFIRM_FIRE: a group above 3 is refused; in NORMAL or ALERT with agent the countdown begins with the delay D, held
where a hold is in force, and egress-only begins on every zone of the group: each door RELEASED for entry into one of
them, or by REMOTE with a side in one, goes SECURE with its reservation cancelled, each pair that waits for one is
dropped with SEALED at its side, and every other door stays; with the agent spent it is refused and the notice "no
agent" goes to the ports whose filter and queue take it; in STARTUP and in LOCKOUT it is refused, and in every later
state it changes nothing. GOOD_REPLY of a detector unit, group by group: a circuit newly active brings NORMAL to ALERT,
and with cross-confirmation standing and agent to the countdown; cross-confirmation that begins to stand brings ALERT to
the countdown, unless the agent is spent; no circuit left active brings ALERT to NORMAL; nothing else moves a group. That
the delay of each group is the one of the state before rests on the roster's invariant (R16). That a group in NORMAL is
confirmed also where cross-confirmation stood before the reply, its record having been written so, is the model's choice
(log 99).
GOOD_REPLY with a manual release circuit newly pressed: the countdown begins with the delay Dm, or goes on with the less
of what remains and Dm; holds no longer matter. A press in any other state, or with the agent spent, moves nothing.
Detectors and the manual release begin egress-only on the zones of each group that comes to count, with the doors dealt
with as at Confirm Fire. -/
def Obligations.Confirm_Fire_Begins_The_Countdown : Prop :=
  (∀ (h : Head) (g : Nat) (s : State), Takes s h Code.confirmFire →
    (3 < g → AnswersOnly (.confirmFire h g) s h Code.confirmFire .badParam []) ∧
    (g ≤ 3 →
    let v := s.group g
    let r := s.config.group g
    let d := if (groupZones s g).any (fun z => (s.zone z).occUnknown) then r.dmax
      else min r.dmax (r.b + r.a * min (nEff s g) r.c)
    (v.state = .normal ∨ v.state = .alert → v.spent = false →
      ∃ t, exec (.confirmFire h g) s = .next t ∧ Replied t h Code.confirmFire .done [] ∧
        t.group g = { v with state := if v.panelHold ∨ heldAborts s g ≠ [] then .held else .countdown,
                             remaining := some d, elapsed := some 0, manual := false } ∧
        (∀ k, k ≠ g → t.group k = s.group k) ∧ t.release.lines = s.release.lines ∧
        zonesSealed s t = groupZones s g ∧ OnsetDealtWith s t ∧
        { t with doors := s.doors, roster := s.roster, afterHours := s.afterHours, release := s.release, loop := s.loop,
                 loopTest := s.loopTest, points := s.points, ports := s.ports } = s) ∧
    (v.state = .normal ∨ v.state = .alert → v.spent = true →
      ∃ t, exec (.confirmFire h g) s = .next t ∧ Replied t h Code.confirmFire .badState [] ∧ { t with ports := s.ports } = s ∧
        ∀ p, p = .fire ∨ p = .console → (s.port p).filter.getLsbD 2 = true → (s.port p).notices.length < 31 →
          ∃ vals, (t.port p).sending = some (.notice ⟨.groupNoAgent, vals⟩) ∨
            (⟨.groupNoAgent, vals⟩ : Notice) ∈ (t.port p).notices) ∧
    (v.state = .startup ∨ v.state = .lockout → AnswersOnly (.confirmFire h g) s h Code.confirmFire .badState []) ∧
    (v.state = .countdown ∨ v.state = .held ∨ v.state = .sealWait ∨ v.state = .releasing ∨ v.state = .discharged →
      AnswersOnly (.confirmFire h g) s h Code.confirmFire .done []))) ∧
  (∀ (ex : Exchange) (toggle : Bool) (rs : List Reading) (s : State), Polled s ex → RosterSound s →
    nodeType s ex.node = .detector → rs.length = 16 →
    let was := fun (pt : Nat) => (s.node (pt / 16)).sup = .online ∧ reading s (pt / 16) (pt % 16) = some .active
    let is := fun (pt : Nat) => (s.node (pt / 16)).sup = .online ∧
      (if pt / 16 = ex.node then rs[pt % 16]? else reading s (pt / 16) (pt % 16)) = some .active
    ∃ t, exec (.goodReply (.ready toggle rs (.presentations []))) s = .next t ∧ (t.node ex.node).input = rs ∧
      t.release.lines = s.release.lines ∧ t.release.holdMarks = s.release.holdMarks ∧
      (∀ g, g ≤ 3 →
        let v := s.group g
        let r := s.config.group g
        let newly := ∃ d ∈ r.detectors, is d.1 ∧ ¬ was d.1
        let crossed := fun (active : Nat → Prop) =>
          (∃ d ∈ r.detectors, d.2 = .x ∧ active d.1) ∧ ∃ d ∈ r.detectors, d.2 = .y ∧ active d.1
        let begun := { v with
          state := if v.panelHold ∨ heldAborts s g ≠ [] then .held else .countdown
          remaining := some (if (groupZones s g).any (fun z => (s.zone z).occUnknown) then r.dmax
            else min r.dmax (r.b + r.a * min (nEff s g) r.c))
          elapsed := some 0, manual := false }
        (v.state = .normal → ¬ newly → t.group g = v) ∧
        (v.state = .normal → newly → ¬ crossed is ∨ v.spent = true → t.group g = { v with state := .alert }) ∧
        (v.state = .normal → newly → crossed is → v.spent = false → t.group g = begun) ∧
        (v.state = .alert → crossed is → ¬ crossed was → t.group g = if v.spent then v else begun) ∧
        (v.state = .alert → (∃ d ∈ r.detectors, was d.1) → (∀ d ∈ r.detectors, ¬ is d.1) →
          t.group g = { v with state := .normal }) ∧
        (v.state = .alert → (∃ d ∈ r.detectors, is d.1) → ¬ crossed is ∨ crossed was → t.group g = v) ∧
        (v.state ≠ .normal → v.state ≠ .alert → t.group g = v)) ∧
      OnsetDealtWith s t ∧
      { t with doors := s.doors, roster := s.roster, afterHours := s.afterHours, release := s.release, loop := s.loop,
               loopTest := s.loopTest, points := s.points, ports := s.ports } = s) ∧
  (∀ (ex : Exchange) (toggle : Bool) (c g : Nat) (s : State), Polled s ex → AlarmsSound s →
    nodeType s ex.node = .station → circuitFn s ex.node c = .manualRelease → c ≤ 15 → (s.node ex.node).input.length = 16 →
    reading s ex.node c = some .normal → zoneGroup s (s.config.node ex.node).zone = some g → g ≤ 3 →
    let v := s.group g
    let r := s.config.group g
    let dm := if (groupZones s g).any (fun z => (s.zone z).occUnknown) then r.dmax
      else min r.dmax (r.bm + r.a * min (nEff s g) r.c)
    let counting := fun (rem : Nat) =>
      { v with state := .countdown, remaining := some rem, elapsed := some (dm - rem), manual := true }
    ∃ t, exec (.goodReply (.ready toggle ((s.node ex.node).input.set c .active) (.presentations []))) s = .next t ∧
      (v.state = .normal ∨ v.state = .alert → t.group g = if v.spent then v else counting dm) ∧
      (v.state = .countdown ∨ v.state = .held → t.group g = counting (min (v.remaining.getD 0) dm)) ∧
      (v.state = .startup ∨ v.state = .sealWait ∨ v.state = .releasing ∨ v.state = .discharged ∨ v.state = .lockout →
        t.group g = v) ∧
      (∀ k, k ≠ g → t.group k = s.group k) ∧ OnsetDealtWith s t ∧ t.release.lines = s.release.lines ∧
      { t with doors := s.doors, roster := s.roster, afterHours := s.afterHours, alarms := s.alarms, release := s.release,
               loop := s.loop, loopTest := s.loopTest, points := s.points, ports := s.ports } = s)

/-- PANEL_HOLD, PANEL_RESUME and OVERRIDE_HOLD: a panel hold stops a countdown that no manual release runs; its end,
with no abort circuit held, lets it run on with at least Rmin; an override marks the group's LOST station nodes, and a
group held by their circuits alone runs on. GOOD_REPLY with an abort circuit newly ACTIVE: a countdown that no manual
release runs is held; with the last held one no longer ACTIVE and no panel hold, it runs on with at least Rmin; while
another hold stands it stays held. No other group changes. The three requests are refused for a group above 3. -/
def Obligations.Holds_Stop_The_Countdown : Prop :=
  (∀ (h : Head) (g : Nat) (s : State), 3 < g →
    (Takes s h Code.panelHold → AnswersOnly (.panelHold h g) s h Code.panelHold .badParam []) ∧
    (Takes s h Code.panelResume → AnswersOnly (.panelResume h g) s h Code.panelResume .badParam []) ∧
    (Takes s h Code.overrideHold → AnswersOnly (.overrideHold h g) s h Code.overrideHold .badParam [])) ∧
  (∀ (h : Head) (g : Nat) (s : State), g ≤ 3 →
    let v := s.group g
    let floor := (s.config.group g).rmin
    (Takes s h Code.panelHold → ∃ t, exec (.panelHold h g) s = .next t ∧ Replied t h Code.panelHold .done [] ∧
      (t.group g).panelHold = true ∧ (∀ k, k ≠ g → t.group k = s.group k) ∧
      (v.panelHold = false → v.state = .countdown → v.manual = false →
        t.group g = { v with state := .held, panelHold := true }) ∧
      { t with release := s.release, loop := s.loop, loopTest := s.loopTest, points := s.points, ports := s.ports } = s) ∧
    (Takes s h Code.panelResume → ∃ t, exec (.panelResume h g) s = .next t ∧ Replied t h Code.panelResume .done [] ∧
      (t.group g).panelHold = false ∧ (∀ k, k ≠ g → t.group k = s.group k) ∧
      (v.panelHold = true → v.state = .held → v.manual = false → heldAborts s g = [] →
        t.group g = { v with state := .countdown, panelHold := false,
                             remaining := some (max (v.remaining.getD 0) floor) }) ∧
      { t with release := s.release, loop := s.loop, loopTest := s.loopTest, points := s.points, ports := s.ports } = s) ∧
    (Takes s h Code.overrideHold → ∃ t, exec (.overrideHold h g) s = .next t ∧ Replied t h Code.overrideHold .done [] ∧
      (∀ n, n ∈ t.release.holdMarks ↔
        1 ≤ n ∧ n ≤ 60 ∧ (n ∈ s.release.holdMarks ∨ n ∈ groupStations s g ∧ (s.node n).sup = .lost)) ∧
      (∀ k, k ≠ g → t.group k = s.group k) ∧
      (v.panelHold = false → v.state = .held → v.manual = false →
        (∀ pt ∈ heldAborts s g, (s.node (pt / 16)).sup = .lost) →
        t.group g = { v with state := .countdown, remaining := some (max (v.remaining.getD 0) floor) }) ∧
      { t with release := s.release, loop := s.loop, loopTest := s.loopTest, points := s.points, ports := s.ports } = s)) ∧
  (∀ (ex : Exchange) (toggle : Bool) (c g : Nat) (now : Reading) (s : State), Polled s ex → AlarmsSound s →
    1 ≤ ex.node → ex.node ≤ 60 → nodeType s ex.node = .station → circuitFn s ex.node c = .abort → c ≤ 15 →
    (s.node ex.node).input.length = 16 → zoneGroup s (s.config.node ex.node).zone = some g → g ≤ 3 →
    let v := s.group g
    let pt := ex.node * 16 + c
    ∃ t, exec (.goodReply (.ready toggle ((s.node ex.node).input.set c now) (.presentations []))) s = .next t ∧
      (reading s ex.node c ≠ some .active → now = .active → v.manual = false → v.state = .countdown →
        t.group g = { v with state := .held }) ∧
      (reading s ex.node c = some .active → now ≠ .active → v.manual = false → v.state = .held → v.panelHold = false →
        (∀ q ∈ heldAborts s g, q = pt) →
        t.group g = { v with state := .countdown
                             remaining := some (max (v.remaining.getD 0) (s.config.group g).rmin) }) ∧
      (v.manual = true ∨ v.state ≠ .countdown ∧ v.state ≠ .held ∨
          v.state = .held ∧ (v.panelHold = true ∨ ∃ q ∈ heldAborts s g, q ≠ pt) → t.group g = v) ∧
      (∀ k, k ≠ g → t.group k = s.group k) ∧ t.release.lines = s.release.lines ∧
      { t with alarms := s.alarms, release := s.release, loop := s.loop, loopTest := s.loopTest, points := s.points,
               ports := s.ports } = s)

/-- LOCKOUT, LIFT_LOCKOUT and DECLARE_CLEAR: which states each is taken in, and where the group goes. A group that leaves
LOCKOUT after a full pass, or DISCHARGED, is evaluated from its detector circuits: to ALERT or NORMAL, or with
cross-confirmation standing and agent to a countdown of the delay D. Where the group was in LOCKOUT that is an onset of
egress-only, and the doors of its zones are dealt with as at Confirm Fire; otherwise every door and slot stays. Each is
refused for a group above 3. That DECLARE_CLEAR evaluates the group at once before the first full pass since a Restart too
is the model's choice (log 104). -/
def Obligations.Groups_Are_Locked_Out_And_Evaluated : Prop :=
  ∀ (h : Head) (g : Nat) (s : State),
    (3 < g →
      (Takes s h Code.lockout → AnswersOnly (.lockout h g) s h Code.lockout .badParam []) ∧
      (Takes s h Code.liftLockout → AnswersOnly (.liftLockout h g) s h Code.liftLockout .badParam []) ∧
      (Takes s h Code.declareClear → AnswersOnly (.declareClear h g) s h Code.declareClear .badParam [])) ∧
    (g ≤ 3 →
    let v := s.group g
    let evaluated := fun (t : State) =>
      (∀ k, k ≠ g → t.group k = s.group k) ∧ t.release.lines = s.release.lines ∧
      (if crossStands s g = true ∧ v.spent = false then
        t.group g = { v with state := if holdInForce s g then .held else .countdown, remaining := some (delayD s g),
                             elapsed := some 0, manual := false }
      else t.group g = { v with state := if anyActive s g then .alert else .normal }) ∧
      OnsetDealtWith s t ∧
      { t with doors := s.doors, roster := s.roster, afterHours := s.afterHours, release := s.release, loop := s.loop,
               loopTest := s.loopTest, points := s.points, ports := s.ports } = s
    (Takes s h Code.lockout →
      (v.state = .releasing ∨ v.state = .discharged → AnswersOnly (.lockout h g) s h Code.lockout .badState []) ∧
      (v.state = .lockout → AnswersOnly (.lockout h g) s h Code.lockout .done []) ∧
      (v.state ≠ .releasing → v.state ≠ .discharged → v.state ≠ .lockout →
        ∃ t, exec (.lockout h g) s = .next t ∧ Replied t h Code.lockout .done [] ∧
          t.group g = { v with state := .lockout, remaining := none, elapsed := none, manual := false,
                               sealTimer := none } ∧
          (∀ k, k ≠ g → t.group k = s.group k) ∧ t.release.lines = s.release.lines ∧
          { t with release := s.release, loop := s.loop, loopTest := s.loopTest, points := s.points,
                   ports := s.ports } = s)) ∧
    (Takes s h Code.liftLockout →
      (v.state ≠ .lockout ∨ s.configValid = false → AnswersOnly (.liftLockout h g) s h Code.liftLockout .badState []) ∧
      (v.state = .lockout → s.configValid = true →
        ∃ t, exec (.liftLockout h g) s = .next t ∧ Replied t h Code.liftLockout .done [] ∧
          (s.loop.passDone = true → evaluated t) ∧
          (s.loop.passDone = false → t.group g = { v with state := .startup } ∧ OnsetDealtWith s t ∧
            ∀ k, k ≠ g → t.group k = s.group k))) ∧
    (Takes s h Code.declareClear →
      (v.state ≠ .discharged → AnswersOnly (.declareClear h g) s h Code.declareClear .badState []) ∧
      (v.state = .discharged →
        ∃ t, exec (.declareClear h g) s = .next t ∧ Replied t h Code.declareClear .done [] ∧ evaluated t)))

/-- REARM: for a group above 3, and outside NORMAL and LOCKOUT, it is refused; otherwise the agent-spent flag is cleared, the write of its cell
begins, and the request is in flight until the cell has persisted. -/
def Obligations.Rearm_Clears_The_Agent_Flag : Prop :=
  ∀ (h : Head) (g : Nat) (s : State), Takes s h Code.rearm →
    (3 < g → AnswersOnly (.rearm h g) s h Code.rearm .badParam []) ∧
    (g ≤ 3 → (s.group g).state ≠ .normal → (s.group g).state ≠ .lockout → AnswersOnly (.rearm h g) s h Code.rearm .badState []) ∧
    (g ≤ 3 → (s.group g).state = .normal ∨ (s.group g).state = .lockout →
      ∃ t, exec (.rearm h g) s = .next t ∧ t.group g = { s.group g with spent := false } ∧
        (∀ k, k ≠ g → t.group k = s.group k) ∧ Tab.get none t.nv.spentWrites g = some false ∧
        t.nv.region = s.nv.region ∧ (t.port h.port).inFlight = some ⟨h.tag, Code.rearm, false, .rearm g⟩ ∧
        { t with release := s.release, nv := s.nv, ports := s.ports } = s)

/-- COUNTDOWN_TICK, COUNTDOWN_END and SEAL_TIMER_EXPIRY: a tick takes one from remaining and adds one to elapsed; the
tick that ends the count goes on to RELEASING, with the lines of the group's pair driven and the pulse timer at P, or,
while a door of the group is not known closed, to SEAL-WAIT for S ticks; the end of S releases whatever the doors say.
GOOD_REPLY with the contact of a door of a group in SEAL-WAIT newly closed, no slot reserved for it: where it was the last
that was not known closed the group goes to RELEASING, and else it waits on.
MOVE_ROSTER_ENTRY of an occupant without grant, taken, is a recompute for the group of the new zone: remaining becomes the
delay from the new number of occupants, less what has elapsed, where that is more, and never above Dmax; more than 0 in
SEAL-WAIT brings the group back to its countdown, held where a hold is in force. -/
def Obligations.Countdown_Runs_To_The_Release : Prop :=
  (∀ (g rem el : Nat) (s : State), s.serving = true → g ≤ 3 →
    let v := s.group g
    let r := s.config.group g
    let frame := fun (t : State) => (∀ k, k ≠ g → t.group k = s.group k) ∧
      { t with release := s.release, loop := s.loop, loopTest := s.loopTest, points := s.points, ports := s.ports } = s
    let driven := fun (t : State) => t.lineDriven r.pair = true ∧ ∀ k, k ≠ r.pair → t.lineDriven k = s.lineDriven k
    (v.state = .countdown → v.remaining = some rem → v.elapsed = some el → 2 ≤ rem →
      ∃ t, exec (.countdownTick g) s = .next t ∧ frame t ∧ t.release.lines = s.release.lines ∧
        t.group g = { v with remaining := some (rem - 1), elapsed := some (min 65535 (el + 1)) }) ∧
    (v.state = .countdown → v.remaining = some 1 → v.elapsed = some el →
      ∃ t, exec (.countdownEnd g) s = .next t ∧ frame t ∧
        (if notClosed s g = [] ∨ r.s = 0 then
          t.group g = { v with state := .releasing, remaining := some 0, elapsed := some (min 65535 (el + 1)),
                               sealTimer := none, pulse := some r.p } ∧ driven t
        else
          t.group g = { v with state := .sealWait, remaining := some 0, elapsed := some (min 65535 (el + 1)),
                               sealTimer := some r.s } ∧ t.release.lines = s.release.lines)) ∧
    (v.state = .sealWait →
      ∃ t, exec (.sealTimerExpiry g) s = .next t ∧ frame t ∧ driven t ∧
        t.group g = { v with state := .releasing, sealTimer := none, pulse := some r.p })) ∧
  (∀ (ex : Exchange) (toggle : Bool) (d g : Nat) (s : State), Polled s ex → AlarmsSound s →
    nodeType s ex.node = .door → doorOfNode s ex.node = some d → (s.node ex.node).input.length = 16 →
    reading s ex.node 2 ≠ some .normal → (s.door d).contact ≠ .closed →
    (s.door d).state = .open ∨ (s.door d).state = .heldOpen ∨ (s.door d).state = .forced →
    (∀ i, i ≤ 127 → (s.slot i).pendDoor ≠ some d) → g ≤ 3 → d ∈ groupDoors s g → (s.group g).state = .sealWait →
    let v := s.group g
    let r := s.config.group g
    ∃ t, exec (.goodReply (.ready toggle ((s.node ex.node).input.set 2 .normal) (.presentations []))) s = .next t ∧
      (t.door d).state = .secure ∧ t.roster = s.roster ∧
      (if ∀ k ∈ notClosed s g, k = d then
        t.group g = { v with state := .releasing, sealTimer := none, pulse := some r.p } ∧ t.lineDriven r.pair = true
      else t.group g = v)) ∧
  (∀ (h : Head) (i z from_ g rem el : Nat) (s : State), Takes s h Code.moveRosterEntry → AlarmsSound s → RosterSound s →
    i ≤ 127 → (s.slot i).state = .present → (s.slot i).zone = some from_ → from_ ≠ z → 1 ≤ z → z ≤ 15 →
    tracked s z = true → committed s z + 1 ≤ (s.config.zone z).capacity → (s.slot i).grant = none → s.place i = none →
    zoneGroup s z = some g → g ≤ 3 →
    let v := s.group g
    let r := s.config.group g
    v.remaining = some rem → v.elapsed = some el →
    let base := if v.manual then r.bm else r.b
    let occupants := nEff s g + if zoneGroup s from_ = some g then 0 else 1
    let d := if (groupZones s g).any (fun z => (s.zone z).occUnknown) then r.dmax
      else min r.dmax (base + r.a * min occupants r.c)
    let new := min r.dmax (max rem (d - el))
    ∃ t, exec (.moveRosterEntry h i z) s = .next t ∧ Replied t h Code.moveRosterEntry .done [] ∧
      (v.state = .countdown ∨ v.state = .held ∨ v.state = .sealWait ∧ new = 0 →
        t.group g = { v with remaining := some new }) ∧
      (v.state = .sealWait → 0 < new →
        t.group g = { v with
          state := if v.manual = false ∧ (v.panelHold = true ∨ heldAborts s g ≠ []) then .held else .countdown
          remaining := some new, sealTimer := none }) ∧
      (v.state ≠ .countdown → v.state ≠ .held → v.state ≠ .sealWait → t.group g = v) ∧
      (∀ k, k ≠ g → zoneGroup s from_ ≠ some k → t.group k = s.group k) ∧ t.release.lines = s.release.lines ∧
      { t with roster := s.roster, afterHours := s.afterHours, alarms := s.alarms, release := s.release, loop := s.loop,
               loopTest := s.loopTest, points := s.points, ports := s.ports } = s)

/-- PULSE_TIMER_EXPIRY: the release lines go off, the group is DISCHARGED with its countdown values absent and its agent
spent, the write of the agent-spent cell begins, each zone of the group that is occupied or whose occupancy is unknown has
its OCCUPANTS-AT-DISCHARGE alarm, RAISED with its cause over, where the queue has room, and the LIVE grants of the group's
zones end: FREE without entrants, OVERSTAY with. -/
def Obligations.Pulse_Ends_In_Discharge : Prop :=
  ∀ (g : Nat) (s : State), s.serving = true → g ≤ 3 → (s.group g).state = .releasing →
    ∃ t, exec (.pulseTimerExpiry g) s = .next t ∧
      t.group g = { s.group g with state := .discharged, remaining := none, elapsed := none, manual := false,
                                   pulse := none, spent := true } ∧
      t.lineDriven (s.config.group g).pair = false ∧ Tab.get none t.nv.spentWrites g = some true ∧
      t.nv.region = s.nv.region ∧
      (∀ z ∈ groupZones s g, 0 < occupancy s z ∨ (s.zone z).occUnknown = true →
        s.alarms.records.length + (groupZones s g).length ≤ 32 →
        ∃ a, a ∈ t.alarms.records ∧ a.key = ⟨.occupantsAtDischarge, z, none, none, none⟩ ∧ a.acked = false ∧
          a.active = false) ∧
      (∀ k, 1 ≤ k → k ≤ 16 → t.grant k =
        if (s.grant k).state = .live ∧ zoneGroup s (s.grant k).zone = some g then
          if (s.grant k).count = 0 then Grant.free else { s.grant k with state := .overstay }
        else s.grant k) ∧
      { t with release := s.release, nv := s.nv, afterHours := s.afterHours, alarms := s.alarms, loop := s.loop,
               loopTest := s.loopTest, points := s.points, ports := s.ports } = s

/-! ### Staff alarms (07) -/

/-- ACKNOWLEDGE_ALARM, CLEAR_ALARM, ESCALATION_TIMER_EXPIRY and SILENCE_TIMER_EXPIRY: what each does to the record of
its number, and to no other record; the line follows the records. The two requests are refused for the number 0, and for
a number that no queued record has. The silence timer's expiry acts when it has run out:
a hearing taken before it has started the timer again, and nothing happens. -/
def Obligations.Alarm_Records_Run_Their_Course : Prop :=
  (∀ (h : Head) (n : Nat) (s : State), n = 0 ∨ alarmNumbered s n = none →
    let refusal : Result := if n = 0 then .badParam else .notFound
    (Takes s h Code.acknowledgeAlarm → AnswersOnly (.acknowledgeAlarm h n) s h Code.acknowledgeAlarm refusal []) ∧
    (Takes s h Code.clearAlarm → AnswersOnly (.clearAlarm h n) s h Code.clearAlarm refusal [])) ∧
  ∀ (h : Head) (n : Nat) (r : AlarmRec) (s : State), alarmNumbered s n = some r → n ≠ 0 →
    let told := fun (t : State) (rs : List AlarmRec) =>
      t.alarms = { s.alarms with records := rs, line := rs.any fun x => !x.acked && x.level == 3 } ∧
        { t with alarms := s.alarms, release := s.release, loop := s.loop, loopTest := s.loopTest, points := s.points,
                 ports := s.ports } = s
    let replaced := fun (v : AlarmRec) => s.alarms.records.map fun x => if x.number = n then v else x
    let removed := s.alarms.records.filter fun x => !(x.number == n)
    (Takes s h Code.acknowledgeAlarm →
      (r.acked = true → AnswersOnly (.acknowledgeAlarm h n) s h Code.acknowledgeAlarm .done []) ∧
      (r.acked = false → ∃ t, exec (.acknowledgeAlarm h n) s = .next t ∧ Replied t h Code.acknowledgeAlarm .done [] ∧
        told t (if r.active ∨ r.key.kind.latching then replaced { r with acked := true, escalation := none }
          else removed))) ∧
    (Takes s h Code.clearAlarm →
      (r.key.kind.latching = false ∨ r.acked = false ∨ r.active = true →
        AnswersOnly (.clearAlarm h n) s h Code.clearAlarm .badState []) ∧
      (r.key.kind.latching = true → r.acked = true → r.active = false →
        ∃ t, exec (.clearAlarm h n) s = .next t ∧ Replied t h Code.clearAlarm .done [] ∧ told t removed)) ∧
    (s.serving = true → r.acked = false → r.level < 3 →
      ∃ t, exec (.escalationTimerExpiry n) s = .next t ∧
        told t (replaced { r with level := r.level + 1,
                                  escalation := if r.level = 2 then none else some (escalationPeriod s) })) ∧
    (s.serving = true → r.key.kind = .pendant → r.active = true → r.silence = some 0 →
      ∃ t, exec (.silenceTimerExpiry n) s = .next t ∧ told t (replaced { r with active := false, silence := none })) ∧
    (s.serving = true → r.silence ≠ some 0 →
      ∃ t, exec (.silenceTimerExpiry n) s = .next t ∧ { t with ports := s.ports } = s)

/-! ### The field loop (08) and the loop test (09) -/

/-- GOOD_REPLY to a POLL of an ONLINE node other than a detector unit, with the readings unchanged and no event: the
failure count falls to 0, the toggle follows the acknowledgement, and the poller leaves the step; no other node and
nothing beyond the loop and the ports changes. The reply that ends the first full pass evaluates every group in STARTUP,
with the doors dealt with as at Confirm Fire; the delays rest on the roster's invariant (R16).
A node that has not reported yet, or is LOST with enough GOOD exchanges, becomes ONLINE with the readings of the reply,
its Override Hold mark is cleared, and the door that names it is SECURE or FORCED by its contact. A reply that changes a
reading, or any of a PENDANT node, takes up the record with which its exchange began as the one by which the node's
circuits are read; another leaves that record as it stands (log 74). -/
def Obligations.Poll_Replies_Keep_A_Node_Online : Prop :=
  (∀ (ex : Exchange) (toggle : Bool) (rs : List Reading) (s : State), Polled s ex →
    nodeType s ex.node ≠ .detector → (s.node ex.node).input = rs → rs.length = 16 →
    ∃ t, exec (.goodReply (.ready toggle rs (.presentations []))) s = .next t ∧
      t.node ex.node = { s.node ex.node with
        f := 0, toggle := if toggle = (s.node ex.node).toggle then !toggle else (s.node ex.node).toggle } ∧
      (∀ n, n ≠ ex.node → t.node n = s.node n) ∧
      (s.loop.rewritten = true → t.loop.position = 0 ∧ t.loop.rewritten = false) ∧
      (s.loop.rewritten = false → t.loop.position =
        if ex.step then (s.loop.position + 1) % max 1 s.config.pollList.length else s.loop.position) ∧
      { t with loop := s.loop, ports := s.ports } = s) ∧
  -- the first full pass (R108, R170)
  (∀ (ex : Exchange) (toggle : Bool) (rs : List Reading) (s : State), s.serving = true → s.loop.exchange = some ex →
    ex.command = .poll → ex.quiet = false → ex.stale = false → ex.record = s.config.node ex.node →
    (s.node ex.node).sup = .online → nodeType s ex.node ≠ .detector → (s.node ex.node).input = rs → rs.length = 16 →
    s.loop.passDone = false → s.configValid = true → ex.step = true → s.loop.rewritten = false →
    (∀ i, i < s.config.pollList.length → i = s.loop.position ∨ s.loop.tried[i]? = some true) → RosterSound s →
    ∃ t, exec (.goodReply (.ready toggle rs (.presentations []))) s = .next t ∧ t.loop.passDone = true ∧
      t.release.lines = s.release.lines ∧
      (∀ g, g ≤ 3 → (s.group g).state ≠ .startup → t.group g = s.group g) ∧
      (∀ g, g ≤ 3 → (s.group g).state = .startup →
        if crossStands s g = true ∧ (s.group g).spent = false then
          t.group g = { s.group g with state := if holdInForce s g then .held else .countdown
                                       remaining := some (delayD s g), elapsed := some 0, manual := false }
        else t.group g = { s.group g with state := if anyActive s g then .alert else .normal }) ∧
      OnsetDealtWith s t ∧
      { t with doors := s.doors, roster := s.roster, afterHours := s.afterHours, release := s.release, loop := s.loop,
               loopTest := s.loopTest, points := s.points, ports := s.ports } = s) ∧
  -- the passage to ONLINE (R59, R167, R168)
  (∀ (ex : Exchange) (toggle : Bool) (rs : List Reading) (s : State), s.serving = true → s.loop.exchange = some ex →
    ex.command = .poll → ex.quiet = false → ex.stale = false → ex.record = s.config.node ex.node → rs.length = 16 →
    s.loop.passDone = true →
    let v := s.node ex.node
    v.sup = .unknown ∨ v.sup = .lost ∧ ex.timing.g ≤ v.g + 1 ∧ ex.timing.g ≤ 15 →
    ∃ t, exec (.goodReply (.ready toggle rs (.presentations []))) s = .next t ∧
      t.node ex.node = { v with sup := .online, f := 0, g := 0, input := rs
                                toggle := if toggle = v.toggle then !v.toggle else v.toggle
                                readBy := if v.input = rs ∧ nodeType s ex.node ≠ .pendant then v.readBy else none } ∧
      (∀ n, n ≠ ex.node → t.node n = s.node n) ∧ ex.node ∉ t.release.holdMarks ∧
      (∀ n, n ≠ ex.node → (n ∈ t.release.holdMarks ↔ n ∈ s.release.holdMarks)) ∧
      (∀ d, nodeType s ex.node = .door → doorOfNode s ex.node = some d →
        (rs[2]? = some .normal → rs[0]? ≠ some .active → rs[1]? ≠ some .active →
          (t.door d).state = .secure ∧ (t.door d).contact = .closed ∧ (t.door d).kind = none ∧
            (t.door d).timer = none ∧ (t.door d).respA = .idle ∧ (t.door d).respB = .idle) ∧
        (rs[2]? ≠ some .normal →
          (t.door d).state = .forced ∧ (t.door d).contact = .open ∧
            (tracked s (s.config.door d).sideB = true → (t.zone (s.config.door d).sideB).occUnknown = true)) ∧
        (∀ k, k ≠ d → t.door k = s.door k) ∧ t.roster = s.roster)) ∧
  -- the record by which the circuits are read (R153, R166)
  (∀ (ex : Exchange) (toggle : Bool) (rs : List Reading) (s : State), s.serving = true → s.loop.exchange = some ex →
    ex.command = .poll → ex.quiet = false → ex.stale = false → (s.node ex.node).sup = .online → rs.length = 16 →
    ∃ t, exec (.goodReply (.ready toggle rs (.presentations []))) s = .next t ∧ (t.node ex.node).input = rs ∧
      (t.node ex.node).readBy =
        if (s.node ex.node).input = rs ∧ nodeType s ex.node ≠ .pendant then (s.node ex.node).readBy
        else if ex.record = s.config.node ex.node then none else some ex.record)

/-- GOOD_REPLY with a call circuit of an ONLINE station unit newly pressed, no other circuit changed: the zone's
CALL-STATION alarm is raised or merged and is active, where the queue has room for it. -/
def Obligations.Call_Buttons_Raise_Their_Alarm : Prop :=
  ∀ (ex : Exchange) (toggle : Bool) (rs : List Reading) (c : Nat) (s : State), Polled s ex → AlarmsSound s →
    1 ≤ ex.node → ex.node ≤ 60 → nodeType s ex.node = .station → circuitFn s ex.node c = .call → c ≤ 15 →
    reading s ex.node c = some .normal → rs = (s.node ex.node).input.set c .active → rs.length = 16 →
    let key : AlarmKey := ⟨.callStation, (s.config.node ex.node).zone, none, none, none⟩
    (s.alarms.records.length < 32 ∨ (alarmKeyed s key).isSome = true) →
    ∃ t, exec (.goodReply (.ready toggle rs (.presentations []))) s = .next t ∧ (t.node ex.node).input = rs ∧
      (∃ r, r ∈ t.alarms.records ∧ r.key = key ∧ r.active = true) ∧
      { t with alarms := s.alarms, loop := s.loop, ports := s.ports } = s

/-- REPLY_TIMEOUT, FAULTY_CHARACTER, ATTEMPT_FAILS_ON_REPLY and RETRY: a failed attempt short of the last goes quiet,
and the retry sends the poll again with the image as it stands; the last one ends the exchange FAILED, and an ONLINE
node counts it, going LOST at the L-th in a row. A test of the reply that is not asked of the command fails no attempt.
At a node's loss the door that names it goes FAIL, its reservation cancelled where it was RELEASED and committed where
it stood open; a station's abort circuits that were held stay held, and hold their group, unless an Override Hold marks
the node; and a loop test on the node ends NODE-LOST. -/
def Obligations.Attempts_Fail_Before_Exchanges : Prop :=
  ∀ (c : Instr) (why : Option FailReason) (ex : Exchange) (s : State), s.serving = true → s.loop.exchange = some ex →
    ex.stale = false →
    let asked := fun (k : ReplyFault) =>
      (k = .tooShort ∨ k = .notWholeEvents ∨ k = .tooManyEvents → ex.command = .poll) ∧ (k = .testReply → ex.command ≠ .poll)
    (c = .replyTimeout ∧ why = some .timeout ∨ c = .faultyCharacter .parity ∧ why = some .parity ∨
      c = .faultyCharacter .framing ∧ why = some .framing ∨ c = .faultyCharacter .overrun ∧ why = some .overrun ∨
      (∃ k, c = .attemptFailsOnReply k ∧ asked k) ∧ why = none) →
    let v := s.node ex.node
    let noted : NodeVol := { v with lastFail := why.or v.lastFail }
    (ex.quiet = false → ex.fails < ex.timing.r → ∃ t, exec c s = .next t ∧
      t.loop.exchange = some { ex with fails := ex.fails + 1, quiet := true, sending := false } ∧ t.node ex.node = noted ∧
      (∀ n, n ≠ ex.node → t.node n = s.node n) ∧
      { t.loop with exchange := s.loop.exchange, nodes := s.loop.nodes } = s.loop ∧
      { t with loop := s.loop, ports := s.ports } = s) ∧
    (ex.quiet = false → ex.timing.r ≤ ex.fails → ex.judged = false → s.loop.passDone = true → v.sup = .online →
      ex.timing.l ≤ 15 → ∃ t, exec c s = .next t ∧
      t.node ex.node = (if v.f + 1 < ex.timing.l then { noted with f := v.f + 1, g := 0 }
        else { noted with sup := .lost, f := 0, g := 0 }) ∧
      (∀ n, n ≠ ex.node → t.node n = s.node n) ∧
      (v.f + 1 < ex.timing.l → { t with loop := s.loop, ports := s.ports } = s)) ∧
    (ex.quiet = true → ∃ t, exec .retry s = .next t ∧
      t.loop = { s.loop with
        exchange := some { ex with quiet := false, frame := attemptChars s ex.node ex.command, sending := true } } ∧
      { t with loop := s.loop, ports := s.ports } = s) ∧
    (∀ k, ¬ asked k → ∃ t, exec (.attemptFailsOnReply k) s = .next t ∧ { t with ports := s.ports } = s) ∧
    -- the loss of the node is handed on (R26, R58, R120, R168, R179)
    (ex.quiet = false → ex.timing.r ≤ ex.fails → ex.record = s.config.node ex.node → s.loop.passDone = true →
      v.sup = .online → ex.timing.l ≤ 15 → ex.timing.l ≤ v.f + 1 → AlarmsSound s →
      ∃ t, exec c s = .next t ∧ (t.node ex.node).sup = .lost ∧ (t.node ex.node).input = v.input ∧
        (∀ d, nodeType s ex.node = .door → doorOfNode s ex.node = some d →
          let w := s.door d
          t.door d = { w with
            state := .fail, kind := none, pset := [], target := none, pair := none, windowOver := false, timer := none
            contact := .unknown
            decA := w.decA.map (Decision.mark .tooLate), decB := w.decB.map (Decision.mark .tooLate) } ∧
          (∀ k, k ≠ d → t.door k = s.door k) ∧
          (∀ i, i ≤ 127 → (s.slot i).pendDoor ≠ some d → t.slot i = s.slot i) ∧
          (∀ i, i ≤ 127 → (s.slot i).pendDoor = some d →
            (w.state = .released →
              { t.slot i with grant := (s.slot i).cancelled.grant } = (s.slot i).cancelled) ∧
            (w.state = .open ∨ w.state = .heldOpen →
              ((s.slot i).pendZone = some 0 → t.slot i = Slot.free) ∧
              ∀ z, (s.slot i).pendZone = some z → z ≠ 0 →
                (t.slot i).state = .present ∧ (t.slot i).zone = some z ∧ (t.slot i).pendDoor = none ∧
                  (t.slot i).credential = (s.slot i).credential))) ∧
        (nodeType s ex.node = .station → ex.node ∉ s.release.holdMarks →
          (∀ g, heldAborts t g = heldAborts s g) ∧
          ∀ g, (s.group g).state = .held → holdInForce s g = true → t.group g = s.group g) ∧
        (∀ k, s.loopTest = some k → k.cause = none → k.node = ex.node →
          (∀ g ∈ k.watched, (s.group g).state = .normal ∨ (s.group g).state = .lockout) →
          ∃ k', t.loopTest = some k' ∧ k'.node = k.node ∧ k'.cause = some .nodeLost))

/-- START_LOOP_TEST, STOP_LOOP_TEST and the ends of TEST exchanges, LOOP_TEST_WINDOW_END among them: the checks in their
order, the fresh test with its window brought into range, and the test that ends STOPPED with its state kept. A test byte
continues the bit stream of the register before it. A hunting checker loads its register from each echo and comes IN-SYNC
at the eighth match in a row, its errors then 0; in sync it follows its register, counts each mismatch up to 65535, and
loses sync at the eighth in a row, its errors then 65535. With the node ONLINE the end of a TEST exchange, GOOD or FAILED,
is judged by the checker, advances the sequence and counts in the window; the full window's result is the compressed error
count of an IN-SYNC checker or FFh, and the next window counts from 0. That LOOP_TEST_WINDOW_END is the end of the exchange
that fills the window, that the test is judged before supervision counts it, that a loss of sync leaves the run of
mismatches open to anything, and that LOOP_TEST_WINDOW_END with the outcome FAILED leaves the last failure reason are the
model's choice (logs 27, 18, 47 and 119). -/
def Obligations.Loop_Tests_Run_By_Windows : Prop :=
  ∀ (h : Head) (n window : Nat) (s : State),
    (Takes s h Code.startLoopTest →
      let doorBusy := nodeType s n = .door ∧ ∃ d, doorOfNode s n = some d ∧
        ((s.door d).state ≠ .secure ∨ (s.door d).decA ≠ none ∨ (s.door d).decB ≠ none)
      let w := max 16 (min 4096 window)
      (n = 0 ∨ 60 < n ∨ nodeType s n = .none →
        AnswersOnly (.startLoopTest h n window) s h Code.startLoopTest .badParam []) ∧
      (1 ≤ n → n ≤ 60 → nodeType s n ≠ .none →
        ((∃ k, s.loopTest = some k ∧ k.cause = none) ∨ (s.node n).sup ≠ .online ∨ doorBusy ∨
          (∃ g ∈ groupsOfNode s n, (s.group g).state ≠ .normal ∧ (s.group g).state ≠ .lockout)) →
        AnswersOnly (.startLoopTest h n window) s h Code.startLoopTest .badState []) ∧
      (1 ≤ n → n ≤ 60 → nodeType s n ≠ .none → (∀ k, s.loopTest = some k → k.cause ≠ none) →
        (s.node n).sup = .online → ¬ doorBusy →
        (∀ g ∈ groupsOfNode s n, (s.group g).state = .normal ∨ (s.group g).state = .lockout) →
        ∃ t, exec (.startLoopTest h n window) s = .next t ∧
          Replied t h Code.startLoopTest (if w = window then .done else .doneClamped) [] ∧
          t.loopTest = some { node := n, window := w, inWindow := 0, position := 0, sender := 0x7F#7, inSync := false,
                              checker := none, hits := 0, misses := 0, errors := 65535, result := none, windows := 0,
                              watched := groupsOfNode s n, cause := none } ∧
          { t with loopTest := s.loopTest, ports := s.ports } = s)) ∧
    (Takes s h Code.stopLoopTest →
      ((∀ k, s.loopTest = some k → k.cause ≠ none) → AnswersOnly (.stopLoopTest h) s h Code.stopLoopTest .badState []) ∧
      (∀ k, s.loopTest = some k → k.cause = none →
        ∃ t, exec (.stopLoopTest h) s = .next t ∧ Replied t h Code.stopLoopTest .done [] ∧
          t.loopTest = some { k with cause := some .stopped } ∧
          { t with loopTest := s.loopTest, loop := s.loop, ports := s.ports } = s)) ∧
    -- the test byte (R175): each bit is the exclusive-or of the bits six and seven places before it
    (∀ (r : BitVec 7) (m : Nat), 7 ≤ m → m ≤ 14 →
      let bit := fun (m : Nat) => if m < 7 then r.getLsbD (6 - m) else (nextByte r).getLsbD (14 - m)
      bit m = (bit (m - 6) != bit (m - 7))) ∧
    (∀ (b : Byte) (j : Nat), j < 7 → (stagesOf b).getLsbD j = b.getLsbD j) ∧
    -- the checker (R177)
    (∀ k : LoopTest, k.inSync = false →
      k.judge none = { k with hits := 0, checker := none } ∧
      ∀ b : Byte,
        let loaded := if stagesOf b = 0 then none else some (stagesOf b)
        let hit := ∃ r, k.checker = some r ∧ nextByte r = b
        (hit → k.hits + 1 < 8 → k.judge (some b) = { k with hits := k.hits + 1, checker := loaded }) ∧
        (hit → 8 ≤ k.hits + 1 →
          k.judge (some b) = { k with inSync := true, hits := k.hits + 1, misses := 0, errors := 0, checker := loaded }) ∧
        (¬ hit → k.judge (some b) = { k with hits := 0, checker := loaded })) ∧
    (∀ (k : LoopTest) (r : BitVec 7), k.inSync = true → k.checker = some r →
      let next := nextByte r
      k.judge (some next) = { k with misses := 0, checker := some (stagesOf next) } ∧
      ∀ echo, echo ≠ some next →
        (k.misses + 1 < 8 → k.judge echo =
          { k with misses := k.misses + 1, errors := min 65535 (k.errors + 1), checker := some (stagesOf next) }) ∧
        (8 ≤ k.misses + 1 → { k.judge echo with misses := k.misses } =
          { k with inSync := false, checker := none, hits := 0, errors := 65535 })) ∧
    -- the end of a TEST exchange (R176, R178)
    (∀ (c : Instr) (echo : Option Byte) (why : Option FailReason) (ex : Exchange) (k : LoopTest), s.serving = true →
      s.loop.exchange = some ex → ex.judged = true → ex.stale = false → ex.quiet = false → s.loopTest = some k →
      k.cause = none → k.inWindow + 1 ≤ k.window → (s.node ex.node).sup = .online → s.loop.passDone = true →
      let full := k.inWindow + 1 = k.window
      let v := s.node ex.node
      (why = none ∧ (∃ b, echo = some b ∧
          (c = .loopTestWindowEnd (.good b) ∧ full ∨ c = .goodReply (.echo b) ∧ ∃ x, ex.command = .test x)) ∨
        echo = none ∧ ex.timing.r ≤ ex.fails ∧ ex.timing.l ≤ 15 ∧ v.f + 1 < ex.timing.l ∧
          (c = .loopTestWindowEnd .failed ∧ full ∧ why = none ∨ c = .replyTimeout ∧ why = some .timeout ∨
            c = .faultyCharacter .parity ∧ why = some .parity ∨ c = .faultyCharacter .framing ∧ why = some .framing ∨
            c = .faultyCharacter .overrun ∧ why = some .overrun ∨
            ((∃ f, c = .attemptFailsOnReply f ∧ f ≠ .tooShort ∧ f ≠ .notWholeEvents ∧ f ≠ .tooManyEvents) ∨
              ∃ r, c = .goodReply r ∧ ∀ b, r ≠ .echo b) ∧ (∃ x, ex.command = .test x) ∧ why = none)) →
      let seen := k.judge echo
      let moved := { seen with position := (k.position + 1) % 127, sender := stagesOf (nextByte k.sender) }
      ∃ t, exec c s = .next t ∧
        t.loopTest = some (if full then
            { moved with
              inWindow := 0, result := some (if seen.inSync then BitVec.ofNat 8 (compress seen.errors) else 0xFF#8)
              windows := min 65535 (k.windows + 1), errors := if seen.inSync then 0 else 65535 }
          else { moved with inWindow := k.inWindow + 1 }) ∧
        t.node ex.node = (if echo = none then { v with f := v.f + 1, g := 0, lastFail := why.or v.lastFail }
          else { v with f := 0 }) ∧
        (∀ n, n ≠ ex.node → t.node n = s.node n) ∧
        { t with loop := s.loop, loopTest := s.loopTest, ports := s.ports } = s)

/-- The compressed form of a count: the mantissa is the count over 2 to the least exponent that brings it to 15 or below,
so a count up to 15 stands for itself. -/
def Obligations.Counts_Compress_To_One_Byte : Prop :=
  ∀ n, n ≤ 65535 → ∃ e, e ≤ 12 ∧ n / 2 ^ e ≤ 15 ∧ (∀ k, k < e → 15 < n / 2 ^ k) ∧ compress n = 16 * e + n / 2 ^ e

/-! ### Points and overrides (09) -/

/-- POINT_SET, POINT_CLEAR, POINT_TOGGLE, OVERRIDE_SET and OVERRIDE_CLEAR: the checks in their order, and the one base
state or the one override entry that changes; a change of the node's image is queued for it. -/
def Obligations.Point_Commands_Write_One_Output : Prop :=
  ∀ (h : Head) (pt : Nat) (s : State),
    let exists_ := 16 ≤ pt ∧ pt ≤ 975 ∧ nodeType s (pt / 16) ≠ .none
    let queued := fun (t : State) => image t (pt / 16) ≠ image s (pt / 16) → testing s (pt / 16) = false →
      s.loop.urgent.length < 16 → pt / 16 ∈ t.loop.urgent
    (∀ c code v, (c = .pointSet h pt ∧ code = Code.pointSet ∧ v = true ∨
        c = .pointClear h pt ∧ code = Code.pointClear ∧ v = false ∨
        c = .pointToggle h pt ∧ code = Code.pointToggle ∧ v = !s.base pt) → Takes s h code →
      (¬ exists_ → AnswersOnly c s h code .badParam []) ∧
      (exists_ → outputOwner s pt ≠ .none → AnswersOnly c s h code .badState []) ∧
      (exists_ → outputOwner s pt = .none → ∃ t, exec c s = .next t ∧ Replied t h code .done [] ∧
        t.base pt = v ∧ (∀ k, k ≠ pt → t.base k = s.base k) ∧ t.points.overrides = s.points.overrides ∧ queued t ∧
        { t with points := s.points, loop := s.loop, ports := s.ports } = s)) ∧
    (∀ c code v, (c = .overrideSet h pt .on ∧ code = Code.overrideSet ∧ v = Override.forceOn ∨
        c = .overrideSet h pt .off ∧ code = Code.overrideSet ∧ v = .forceOff ∨
        c = .overrideClear h pt ∧ code = Code.overrideClear ∧ v = .none) → Takes s h code →
      (¬ exists_ ∨ strongroomLock s pt = true → AnswersOnly c s h code .badParam []) ∧
      (exists_ → strongroomLock s pt = false → ∃ t, exec c s = .next t ∧ Replied t h code .done [] ∧
        t.override pt = v ∧ (∀ k, k ≠ pt → t.override k = s.override k) ∧ t.points.base = s.points.base ∧ queued t ∧
        { t with points := s.points, loop := s.loop, ports := s.ports } = s)) ∧
    (Takes s h Code.overrideSet → AnswersOnly (.overrideSet h pt .other) s h Code.overrideSet .badParam [])

/-! ### Configuration, power-on and Restart (11) -/

/-- WRITE_CONFIGURATION_RECORD and SET_ACCESS_WINDOW, kind by kind: the limits to which the numeric fields are brought,
the structural conditions that are refused as BAD-PARAM and the conditions of the part's state that are refused as
BAD-STATE, the record that a taken write replaces with what follows at once, and what else stays. A schedule is stored
with its windows in range and its empty ones inert; a door takes up a new node by its supervision state and contact; a
node enters or leaves the poll list; a new poll list is walked from its first entry after the exchange in flight; a
group takes its zones and drives its warning outputs by its state; port rates wait for the reply; an access window waits
for its write. A taken write is in flight until it has persisted, and a refused one changes nothing; a node that keeps
its type keeps its state, its circuits read by the record in force until the node's next change (log 74). That values
out of range in the unused fields of an untracked zone bring no DONE-CLAMPED (log 50), that a number outside its rule's
list, a zone or an address that is none and a list that is too long are refused as structural in the records of doors,
nodes and groups (log 29), that a door record which names a node clears the override of its output 0 where the node stays
as well (log 32), that a kind without an index takes index 0 (log 44), that an inert window is stored as none (log 76), that
a group keeps its state at a write that names active circuits (log 99), that a detector point named twice is taken (log
100), that the zone field of a node without a zone is stored as 0 (log 109), that a node made NONE, retyped or newly configured
loses its last failure reason too (log 118), and that a door whose node changes has its own reader responses IDLE, whatever
the new node is (log 124), are the model's choices. -/
def Obligations.Configuration_Writes_Are_In_Flight : Prop :=
  ∀ (h : Head) (i : Nat) (s : State),
    (∀ ws sch cl, Takes s h Code.writeConfigurationRecord → scheduleOf ws = some (sch, cl) → i ≤ 7 →
      ∃ t, exec (.writeConfigurationRecord h i (.schedule ws)) s = .next t ∧ t.config.schedule i = sch ∧
        (∀ k, k ≠ i → t.config.schedule k = s.config.schedule k) ∧
        (t.port h.port).inFlight =
          some ⟨h.tag, Code.writeConfigurationRecord, false, .region (if cl then .doneClamped else .done) false⟩ ∧
        { t with config := { t.config with schedules := s.config.schedules }, ports := s.ports } = s) ∧
    (∀ raw new cl, Takes s h Code.writeConfigurationRecord → zoneOf raw = some (new, cl) → 1 ≤ i → i ≤ 15 →
      breaksDoors s i new.cls = false →
      (zoneBusy s i new = true → AnswersOnly (.writeConfigurationRecord h i (.zone raw)) s h
        Code.writeConfigurationRecord .badState []) ∧
      (zoneBusy s i new = false → ∃ t, exec (.writeConfigurationRecord h i (.zone raw)) s = .next t ∧
        t.config.zone i = new ∧ (∀ k, k ≠ i → t.config.zone k = s.config.zone k) ∧
        (let flag := if new.tracked = tracked s i then (s.zone i).occUnknown else new.tracked
         t.zone i = { s.zone i with occUnknown := flag }) ∧
        (∀ k, k ≠ i → t.zone k = s.zone k) ∧
        (t.port h.port).inFlight =
          some ⟨h.tag, Code.writeConfigurationRecord, false, .region (if cl then .doneClamped else .done) false⟩ ∧
        { t with config := { t.config with zones := s.config.zones }, zones := s.zones, release := s.release,
                 loop := s.loop, loopTest := s.loopTest, points := s.points, ports := s.ports } = s)) ∧
    (∀ low high, Takes s h Code.setAccessWindow →
      (511 < low ∨ 511 < high ∨ high < low →
        AnswersOnly (.setAccessWindow h low high) s h Code.setAccessWindow .badParam []) ∧
      (low ≤ high → high ≤ 511 → ∃ t, exec (.setAccessWindow h low high) s = .next t ∧
        (t.port h.port).inFlight = some ⟨h.tag, Code.setAccessWindow, false, .window low high Code.setAccessWindow⟩ ∧
        { t with ports := s.ports } = s)) ∧
    -- the limits of R5, R1, R35, R105, R153 and R171
    (∀ a b c d : RawWindow,
      let kept := fun (w : RawWindow) =>
        let from_ := min 1439 w.start
        let to_ := max 1 (min 1440 w.stop)
        if to_ ≤ from_ ∨ w.mask &&& 0x7F#8 = 0 then none else some (⟨w.mask &&& 0x7F#8, from_, to_⟩ : Window)
      let far := fun (w : RawWindow) => decide (1439 < w.start ∨ w.stop = 0 ∨ 1440 < w.stop)
      scheduleOf [a, b, c, d] = some (⟨kept a, kept b, kept c, kept d⟩, far a || far b || far c || far d)) ∧
    (∀ raw : RawZone,
      (zoneOf raw = none ↔ 4 < raw.cls ∨ 7 < raw.schedule ∨ (∃ g, raw.group = some g ∧ 3 < g) ∨
        raw.tracked = false ∧ (raw.cls = 0 ∨ raw.group ≠ none)) ∧
      ∀ new cl, zoneOf raw = some (new, cl) →
        new.tracked = raw.tracked ∧ new.cls.ctorIdx = raw.cls ∧ new.schedule = raw.schedule ∧ new.group = raw.group ∧
        new.capacity = (if raw.tracked then max 1 (min 64 raw.capacity) else 0) ∧
        new.interval = (if raw.tracked ∧ raw.interval ≠ 0 then max 5 (min 60 raw.interval) else 0) ∧
        new.grace = (if raw.tracked then max 1 (min 10 raw.grace) else 0) ∧
        (cl = true ↔ raw.tracked = true ∧
          (new.capacity ≠ raw.capacity ∨ new.interval ≠ raw.interval ∨ new.grace ≠ raw.grace))) ∧
    (∀ raw : RawDoor,
      (doorOf raw = none ↔ 2 < raw.cls ∨ 1 < raw.passback ∨ 1 < raw.failMode ∨ 15 < raw.sideA ∨ raw.sideB = 0 ∨
        15 < raw.sideB ∨ 60 < raw.node) ∧
      ∀ new cl, doorOf raw = some (new, cl) →
        new.sideA = raw.sideA ∧ new.sideB = raw.sideB ∧ new.cls.ctorIdx = raw.cls ∧ new.node = raw.node ∧
        new.passback.ctorIdx = raw.passback ∧ new.u = max 10 (min 300 raw.u) ∧ new.h = max 50 (min 3000 raw.h) ∧
        new.w = (if new.cls = .strongroom then max 50 (min 300 raw.w) else raw.w) ∧
        new.failMode.ctorIdx = (if new.cls = .strongroom then 0 else raw.failMode) ∧
        (cl = true ↔ new.u ≠ raw.u ∨ new.h ≠ raw.h ∨ new.w ≠ raw.w ∨ new.failMode.ctorIdx ≠ raw.failMode)) ∧
    (∀ raw : RawNode,
      let zoned := raw.type = 3 ∨ raw.type = 4
      (nodeOf raw = none ↔ 4 < raw.type ∨ (∃ f ∈ raw.functions, 4 < f) ∨ 16 < raw.functions.length ∨
        zoned ∧ (raw.zone = 0 ∨ 15 < raw.zone) ∨ raw.type ≠ 3 ∧ ∃ f ∈ raw.functions, f ≠ 0) ∧
      ∀ new, nodeOf raw = some new →
        new.type.ctorIdx = raw.type ∧ new.zone = (if zoned then raw.zone else 0) ∧
        new.functions.map (·.ctorIdx) = if raw.type = 3 then raw.functions else []) ∧
    (∀ raw : RawGroup,
      (groupOf raw = none ↔ (∃ d ∈ raw.detectors, 1 < d.mark) ∨ (∃ w ∈ raw.warnings, 1 < w.mark) ∨
        32 < raw.detectors.length ∨ 16 < raw.warnings.length ∨ 3 < raw.pair ∨ raw.zones.getLsbD 0 = true) ∧
      ∀ new cl, groupOf raw = some (new, cl) →
        new.b = max 100 (min 600 raw.b) ∧ new.a = min 150 raw.a ∧ new.c = max 1 (min 16 raw.c) ∧
        new.dmax = max 300 (min 1200 raw.dmax) ∧ new.rmin = max 50 (min 300 raw.rmin) ∧
        new.bm = max 100 (min 300 raw.bm) ∧ new.s = min 600 raw.s ∧ new.p = max 10 (min 300 raw.p) ∧
        new.detectors.map (fun d => (d.1, d.2.ctorIdx)) = raw.detectors.map (fun d => (d.point, d.mark)) ∧
        new.warnings.map (fun w => (w.1, w.2.ctorIdx)) = raw.warnings.map (fun w => (w.point, w.mark)) ∧
        new.pair = raw.pair ∧
        (cl = true ↔ new.b ≠ raw.b ∨ new.a ≠ raw.a ∨ new.c ≠ raw.c ∨ new.dmax ≠ raw.dmax ∨ new.rmin ≠ raw.rmin ∨
          new.bm ≠ raw.bm ∨ new.s ≠ raw.s ∨ new.p ≠ raw.p)) ∧
    (∀ raw : RawTiming,
      timingOf raw = (⟨max 2 (min 50 raw.tr), min 5 raw.r, max 1 (min 15 raw.l), max 1 (min 15 raw.g),
          ⟨max 2 (min 15 raw.n), min 15 raw.k⟩⟩,
        decide (raw.tr < 2 ∨ 50 < raw.tr ∨ 5 < raw.r ∨ raw.l = 0 ∨ 15 < raw.l ∨ raw.g = 0 ∨ 15 < raw.g ∨ raw.n < 2 ∨
          15 < raw.n ∨ 15 < raw.k))) ∧
    -- what is refused, and what a taken write does
    (Takes s h Code.writeConfigurationRecord →
      (∀ ws, 7 < i → WriteRefused h i (.schedule ws) s .badParam) ∧
      (∀ raw, zoneOf raw = none ∨ i = 0 ∨ 15 < i → WriteRefused h i (.zone raw) s .badParam) ∧
      (∀ raw new cl, zoneOf raw = some (new, cl) → breaksDoors s i new.cls = true →
        WriteRefused h i (.zone raw) s .badParam) ∧
      (∀ cls, breaksDoors s i cls = true ↔ ∃ d, d ≤ 31 ∧ (s.config.door d).cls = .strongroom ∧
        ((s.config.door d).sideB = i ∧ cls ≠ .strongroom ∨ (s.config.door d).sideA = i ∧ cls = .strongroom)) ∧
      (∀ new : ZoneRec,
        let r := s.config.zone i
        let busy := fun (g : Option Nat) => ∃ k, g = some k ∧ (s.group k).state ≠ .normal ∧ (s.group k).state ≠ .lockout
        zoneBusy s i new = true ↔ 0 < occupancy s i ∨ new.capacity < committed s i ∨
          new.tracked ≠ r.tracked ∧ (∃ e ∈ s.roster, e.2.pendZone = some i) ∨
          new.group ≠ r.group ∧ (busy r.group ∨ busy new.group) ∨
          new.tracked = false ∧ ∃ g, 1 ≤ g ∧ g ≤ 16 ∧ (s.grant g).state ≠ .free ∧ (s.grant g).zone = i) ∧
      -- doors (R35, R36, R183)
      (∀ raw, doorOf raw = none ∨ 31 < i → WriteRefused h i (.door raw) s .badParam) ∧
      (∀ raw new cl, doorOf raw = some (new, cl) → i ≤ 31 →
        let zoneCls := fun z => (s.config.zone z).cls
        let broken := new.sideA = new.sideB ∨ new.cls = .perimeter ∧ new.sideA ≠ 0 ∨ new.cls ≠ .perimeter ∧ new.sideA = 0 ∨
          new.cls = .strongroom ∧ (zoneCls new.sideB ≠ .strongroom ∨ zoneCls new.sideA = .strongroom) ∨
          new.node ≠ 0 ∧ (nodeType s new.node ≠ .door ∨ (∃ d, d ≤ 31 ∧ d ≠ i ∧ (s.config.door d).node = new.node) ∨
            ∃ g, g ≤ 3 ∧ ∃ w ∈ (s.config.group g).warnings, w.1 = new.node * 16)
        let v := s.door i
        let idle := v.state = .secure ∧ v.decA = none ∧ v.decB = none
        let was := (s.config.door i).node
        (broken → WriteRefused h i (.door raw) s .badParam) ∧
        (¬ broken → ¬ idle → WriteRefused h i (.door raw) s .badState) ∧
        (¬ broken → idle → WriteTaken h i (.door raw) s (cl = true) false fun t =>
          t.config.door i = new ∧ (∀ k, k ≠ i → t.config.door k = s.config.door k ∧ t.door k = s.door k) ∧
          (new.node = was → t.door i = v) ∧
          (new.node ≠ was → new.node = 0 ∨ (s.node new.node).sup = .unknown → t.door i = DoorVol.initial) ∧
          (new.node ≠ was → new.node ≠ 0 → (s.node new.node).sup = .lost →
            (t.door i).state = .fail ∧ (t.door i).contact = .unknown) ∧
          (∀ r, new.node ≠ was → new.node ≠ 0 → (s.node new.node).sup = .online → reading s new.node 2 = some r →
            (t.door i).state = (if r = .normal then .secure else .forced) ∧
              (t.door i).contact = if r = .normal then .closed else .open) ∧
          (new.node ≠ 0 → t.override (new.node * 16) = .none) ∧
          { t with config := { t.config with doors := s.config.doors }, doors := s.doors, alarms := s.alarms,
                   zones := s.zones, release := s.release, loop := s.loop, loopTest := s.loopTest, points := s.points,
                   ports := s.ports } = s)) ∧
      -- nodes (R153)
      (∀ raw, nodeOf raw = none ∨ i = 0 ∨ 60 < i → WriteRefused h i (.node raw) s .badParam) ∧
      (∀ raw new, nodeOf raw = some new → 1 ≤ i → i ≤ 60 →
        let old := s.config.node i
        let named := fun g => (∃ d ∈ (s.config.group g).detectors, d.1 / 16 = i) ∨
          ∃ w ∈ (s.config.group g).warnings, w.1 / 16 = i
        let moving := fun (g : Option Nat) => ∃ k, g = some k ∧ (s.group k).state ≠ .normal ∧ (s.group k).state ≠ .lockout
        let broken := old.type ≠ new.type ∧ ((∃ d, d ≤ 31 ∧ (s.config.door d).node = i) ∨ ∃ g, g ≤ 3 ∧ named g) ∨
          old.type = .none ∧ new.type ≠ .none ∧ 96 ≤ s.config.pollList.length
        let busy := testing s i = true ∨ (∃ d, doorOfNode s i = some d ∧ (s.door d).state ≠ .secure) ∨
          (∃ g, g ≤ 3 ∧ named g ∧ moving (some g)) ∨ old.type = .station ∧ moving (zoneGroup s old.zone) ∨
          new.type = .station ∧ moving (zoneGroup s new.zone)
        (broken → WriteRefused h i (.node raw) s .badParam) ∧
        (¬ broken → busy → WriteRefused h i (.node raw) s .badState) ∧
        (¬ broken → ¬ busy → s.loop.passDone = true → WriteTaken h i (.node raw) s False false fun t =>
          t.config.node i = new ∧ (∀ k, k ≠ i → t.config.node k = s.config.node k ∧ t.node k = s.node k) ∧
          t.config.pollList = (if old.type = new.type then s.config.pollList
            else if new.type = .none then s.config.pollList.filter (fun n => !(n == i))
            else if old.type = .none then s.config.pollList ++ [i] else s.config.pollList) ∧
          t.node i = (if old.type = new.type then
              { s.node i with readBy := if (s.node i).readBy.getD old = new then none else some ((s.node i).readBy.getD old) }
            else NodeVol.initial) ∧
          (old.type ≠ new.type → new.type = .none → i ∉ t.loop.urgent) ∧
          (old.type ≠ new.type → ∀ c, c ≤ 15 → t.base (i * 16 + c) = false ∧ t.override (i * 16 + c) = .none) ∧
          { t with config := { t.config with nodes := s.config.nodes, pollList := s.config.pollList },
                   alarms := s.alarms, release := s.release, loop := s.loop, loopTest := s.loopTest, points := s.points,
                   ports := s.ports } = s)) ∧
      -- groups (R105, R131, R181)
      (∀ raw, groupOf raw = none ∨ 3 < i → WriteRefused h i (.group raw) s .badParam) ∧
      (∀ raw new cl, groupOf raw = some (new, cl) → i ≤ 3 →
        let taken := fun z => 1 ≤ z ∧ z ≤ 15 ∧ raw.zones.getLsbD z = true
        let others := fun k => k ≤ 3 ∧ k ≠ i
        let broken := (∃ z, taken z ∧ tracked s z = false) ∨
          (∃ d ∈ new.detectors, d.1 < 16 ∨ 975 < d.1 ∨ nodeType s (d.1 / 16) ≠ .detector ∨
            ∃ k, others k ∧ ∃ e ∈ (s.config.group k).detectors, e.1 = d.1) ∨
          (∃ k, others k ∧ (s.config.group k).pair = new.pair) ∨
          ∃ w ∈ new.warnings, w.1 < 16 ∨ 975 < w.1 ∨ nodeType s (w.1 / 16) = .none ∨ ∃ d, outputOwner s w.1 = .lock d
        let still := fun k => (s.group k).state = .normal ∨ (s.group k).state = .lockout
        let busy := ¬ still i ∨ ∃ z k, taken z ∧ zoneGroup s z = some k ∧ ¬ still k
        (broken → WriteRefused h i (.group raw) s .badParam) ∧
        (¬ broken → busy → WriteRefused h i (.group raw) s .badState) ∧
        (¬ broken → ¬ busy → WriteTaken h i (.group raw) s (cl = true) false fun t =>
          t.config.group i = new ∧ (∀ k, k ≠ i → t.config.group k = s.config.group k) ∧
          (∀ z, 1 ≤ z → z ≤ 15 → t.config.zone z = { s.config.zone z with
            group := if raw.zones.getLsbD z then some i else (s.config.zone z).group.filter fun k => !(k == i) }) ∧
          ((new.warnings.map (·.1)).Nodup → ∀ w ∈ new.warnings, t.base w.1 = warningWanted (s.group i).state w.2) ∧
          { t with config := { t.config with groups := s.config.groups, zones := s.config.zones }, loop := s.loop,
                   points := s.points, ports := s.ports } = s)) ∧
      -- the poll list (R164)
      (∀ ns : List Nat,
        let broken := i ≠ 0 ∨ ns = [] ∨ 96 < ns.length ∨ (∃ n ∈ ns, n = 0 ∨ 60 < n ∨ nodeType s n = .none) ∨
          ∃ n, 1 ≤ n ∧ n ≤ 60 ∧ nodeType s n ≠ .none ∧ n ∉ ns
        (broken → WriteRefused h i (.pollList ns) s .badParam) ∧
        (¬ broken → WriteTaken h i (.pollList ns) s False false fun t =>
          t.config.pollList = ns ∧ t.loop.position = 0 ∧ t.loop.nodes = s.loop.nodes ∧
          (s.loop.passDone = false → t.loop.tried = []) ∧ t.loop.passDone = s.loop.passDone ∧
          (s.loop.exchange ≠ none → t.loop.exchange = s.loop.exchange ∧ t.loop.rewritten = true) ∧
          (∀ n rest, s.loop.exchange = none → s.configValid = true → s.loop.gapLeft = 0 → ns = n :: rest →
            ∃ ex, t.loop.exchange = some ex ∧ ex.node = n ∧ ex.step = true) ∧
          { t with config := { t.config with pollList := s.config.pollList }, loop := s.loop, ports := s.ports } = s)) ∧
      -- the records without index (R82, R147, R171, R195, R202)
      (∀ r : RawRecord, (∃ x, r = .loopTiming x) ∨ (∃ a b, r = .partTimers a b) ∨ (∃ a b c, r = .portRates a b c) ∨
          (∃ a b, r = .accessWindow a b) → i ≠ 0 → WriteRefused h i r s .badParam) ∧
      (∀ k, WriteRefused h i (.undefined k) s .badParam) ∧
      (i = 0 →
        (∀ raw, WriteTaken h i (.loopTiming raw) s ((timingOf raw).2 = true) false fun t =>
          t.config.timing = (timingOf raw).1 ∧
          { t with config := { t.config with timing := s.config.timing }, ports := s.ports } = s) ∧
        (∀ scrub esc, WriteTaken h i (.partTimers scrub esc) s
            (scrub < 5 ∨ 500 < scrub ∨ esc < 300 ∨ 6000 < esc) false fun t =>
          t.config.scrubInterval = max 5 (min 500 scrub) ∧ t.config.escalation = max 300 (min 6000 esc) ∧
          { t with config := { t.config with scrubInterval := s.config.scrubInterval, escalation := s.config.escalation },
                   ports := s.ports } = s) ∧
        (∀ a b c : Rate,
          let kept := fun (r : Rate) => (⟨max 2 (min 15 r.n), min 15 r.k⟩ : Rate)
          WriteTaken h i (.portRates a b c) s (kept a ≠ a ∨ kept b ≠ b ∨ kept c ≠ c) true fun t =>
            t.config.rateA = kept a ∧ t.config.rateB = kept b ∧ t.config.rateC = kept c ∧
            (s.configValid = true → ⟨.writing, kept a, kept b, kept c⟩ ∈ t.ports.rateWrites) ∧
            { t with config := { t.config with rateA := s.config.rateA, rateB := s.config.rateB, rateC := s.config.rateC },
                     ports := s.ports } = s) ∧
        (∀ low high,
          (511 < low ∨ 511 < high ∨ high < low → WriteRefused h i (.accessWindow low high) s .badParam) ∧
          (low ≤ high → high ≤ 511 → ∃ t, exec (.writeConfigurationRecord h i (.accessWindow low high)) s = .next t ∧
            (t.port h.port).inFlight = some ⟨h.tag, Code.writeConfigurationRecord, false,
              .window low high Code.writeConfigurationRecord⟩ ∧
            { t with ports := s.ports } = s))))

/-- CONFIGURATION_WRITE_PERSISTED: the configuration region takes the records of working memory, with a window's values
in force from here; an agent-spent cell takes the value being written; the request that waits is answered. -/
def Obligations.Writes_Persist_And_Are_Answered : Prop :=
  ∀ (f : InFlight) (s : State), s.serving = true →
    (∀ result rates, (s.port .console).inFlight = some f → f.work = .region result rates →
      ∃ t, exec (.configurationWritePersisted .region) s = .next t ∧ t.nv = { s.nv with region := some s.config } ∧
        Answered t .console f result [] ∧ (t.port .console).inFlight = none ∧
        { t with nv := s.nv, ports := s.ports } = s) ∧
    (∀ low high code, (s.port .console).inFlight = some f → f.work = .window low high code →
      ∃ t, exec (.configurationWritePersisted .region) s = .next t ∧
        t.config = { s.config with windowLow := low, windowHigh := high } ∧
        t.nv = { s.nv with region := some t.config } ∧ Answered t .console f .done [] ∧
        (t.port .console).inFlight = none ∧ { t with config := s.config, nv := s.nv, ports := s.ports } = s) ∧
    (∀ g v, Tab.get none s.nv.spentWrites g = some v →
      ∃ t, exec (.configurationWritePersisted (.cell g)) s = .next t ∧
        t.spentCell g = (if v then .set else .clear) ∧ Tab.get none t.nv.spentWrites g = none ∧
        (∀ k, k ≠ g → t.spentCell k = s.spentCell k) ∧ t.nv.region = s.nv.region ∧
        ((s.port .fire).inFlight = some f → f.work = .rearm g →
          Answered t .fire f .done [] ∧ (t.port .fire).inFlight = none) ∧
        { t with nv := s.nv, ports := s.ports } = s)

/-- RESTART: refused while a group counts or releases; otherwise every reservation is settled, an OPEN or HELD-OPEN
door's by its commit and a RELEASED door's by its cancel, so that no slot is left in a passage; the groups go to STARTUP
but for those in LOCKOUT and DISCHARGED, the fitted doors to their initial state, the nodes to UNKNOWN with their
toggles kept, and the poller to the first entry of its list; the clock, the zones, the records and the nonvolatile
memory stay. An INVALID part loads its region again: where the check matches the records are taken and the poller
starts, and else it stays INVALID and makes no exchange. -/
def Obligations.Restart_Begins_The_Loop_Again : Prop :=
  ∀ (h : Head) (s : State), Takes s h Code.restart →
    let passing := fun (d : Nat) => (s.door d).state = .open ∨ (s.door d).state = .heldOpen
    -- the reservations (R34)
    let settled := fun (t : State) =>
      (∀ i, i ≤ 127 → (s.slot i).pendDoor = none → t.slot i = s.slot i) ∧
      (∀ i d, i ≤ 127 → (s.slot i).pendDoor = some d → d ≤ 31 →
        ((s.door d).state = .released → t.slot i = slotGivenBack s i) ∧
        (passing d → ((s.slot i).pendZone = some 0 → t.slot i = Slot.free) ∧
          ∀ z, (s.slot i).pendZone = some z → z ≠ 0 → t.slot i = slotArrived s i z)) ∧
      (RosterSound s → (∀ i d, (s.slot i).pendDoor = some d → d ≤ 31 ∧ ((s.door d).state = .released ∨ passing d)) →
        ∀ i, (t.slot i).state = .free ∨ (t.slot i).state = .present)
    let restated := fun (t : State) => ∀ g, g ≤ 3 →
      let stays := (s.group g).state = .lockout ∨ (s.group g).state = .discharged
      t.group g = { s.group g with state := if stays then (s.group g).state else .startup }
    ((∃ g, g ≤ 3 ∧ (s.group g).state.timed = true) → AnswersOnly (.restart h) s h Code.restart .badState []) ∧
    ((∀ g, g ≤ 3 → (s.group g).state.timed = false) → s.configValid = false →
      (∀ r, s.nv.region = some r → r.pollList ≠ []) →
      ∃ t, exec (.restart h) s = .next t ∧ Replied t h Code.restart .done [] ∧ settled t ∧ restated t ∧
        t.configValid = s.nv.region.isSome ∧ t.config = s.nv.region.getD s.config ∧ t.nv = s.nv ∧
        (s.nv.region = none → t.loop.exchange = none) ∧
        (∀ r, s.nv.region = some r → ∃ ex, t.loop.exchange = some ex ∧ r.pollList.head? = some ex.node ∧
          ex.command = .poll) ∧ t.clock = s.clock ∧ t.zones = s.zones) ∧
    ((∀ g, g ≤ 3 → (s.group g).state.timed = false) → s.configValid = true → s.config.pollList ≠ [] →
      ∃ t ex, exec (.restart h) s = .next t ∧ Replied t h Code.restart .done [] ∧ settled t ∧ restated t ∧
        (∀ d, d ≤ 31 → (s.config.door d).node ≠ 0 → t.door d = DoorVol.initial) ∧
        (∀ n, 1 ≤ n → n ≤ 60 → t.node n = { NodeVol.initial with toggle := (s.node n).toggle }) ∧
        t.release.holdMarks = [] ∧ t.loop.passDone = false ∧ t.loop.position = 0 ∧
        t.loop.exchange = some ex ∧ s.config.pollList.head? = some ex.node ∧ ex.command = .poll ∧ ex.step = true ∧
        (∀ k, t.loopTest = some k → k.cause ≠ none) ∧
        (∀ p, (s.port p).notices ≠ [] → (t.port p).lost = true) ∧
        { t with doors := s.doors, store := s.store, roster := s.roster, afterHours := s.afterHours,
                 alarms := s.alarms, release := s.release, loop := s.loop, loopTest := s.loopTest, points := s.points,
                 ports := s.ports } = s)

/-- POWER_ON: the records of the region, or the defaults where its check does not match, the spent flags of their cells,
a mismatch being taken as set and rewritten, and every volatile block at its power-on values. The store is loaded: a slot
that is marked or whose check finds a double error is DAMAGED with unknown identity and marked, a number or pendant that a
lower slot holds makes a slot DAMAGED with its identity kept and marked, every other slot has the entry of what it holds;
the single errors are counted, nothing waits, and the scrubber starts at slot 0 with its interval. The Fire Port and the
Console Port are offered the notices of the start-up in their order, a valid part polls the first entry of its list, and an
invalid one makes no exchange. That the same holds of a part that is serving, whose unfinished writes are then left undone,
and that the command queue is kept (log 9), that of three slots in conflict the first pass alone decides (log 41), what the
notices carry (log 46), and that 32 of them queue before the first is taken (log 24) are the model's choice. -/
def Obligations.Power_On_Starts_Afresh : Prop :=
  ∀ (load : LoadReport) (s : State), (∀ r, s.nv.region = some r → r.pollList ≠ []) →
    let valid := s.nv.region.isSome
    let cells := s.store.cells
    ∃ t, exec (.powerOn load) s = .next t ∧ t.serving = true ∧ t.clock = ⟨0, 0, false, none⟩ ∧
      t.configValid = valid ∧ t.config = s.nv.region.getD Records.default ∧ t.nv.region = s.nv.region ∧
      t.nv.spentWrites = [] ∧
      (∀ z, 1 ≤ z → z ≤ 15 → t.zone z = ⟨true, false, (t.config.zone z).tracked⟩) ∧
      t.roster = [] ∧ t.doors = [] ∧ t.afterHours = ⟨[], [], [], false⟩ ∧ t.alarms = ⟨[], 1, 0, [], false⟩ ∧
      t.loopTest = none ∧ t.points = ⟨[], []⟩ ∧ t.loop.nodes = [] ∧ t.release.lines = [] ∧ t.release.holdMarks = [] ∧
      (∀ g, g ≤ 3 →
        t.spentCell g = (if s.spentCell g = .clear then .clear else .set) ∧
        t.group g = { state := if valid then .startup else .lockout, remaining := none, elapsed := none,
                      manual := false, panelHold := false, sealTimer := none, pulse := none,
                      spent := !decide (s.spentCell g = .clear) }) ∧
      t.ports.linkPresent = true ∧ t.pending = s.pending ∧
      (∀ p, (t.port p).receive = .hunt ∧ (t.port p).inFlight = none ∧ (t.port p).filter = 0xFF#8) ∧
      -- the load of the store (R84)
      (∀ i, i ≤ 511 →
        let old := s.store.cell i
        (loadSpoils cells load i = true →
          t.store.entry i = ⟨.damaged, none, none, true⟩ ∧ t.store.cell i = { old with marker := true }) ∧
        (loadSpoils cells load i = false → old.contents = .empty →
          t.store.entry i = ⟨.empty, none, none, false⟩ ∧ t.store.cell i = old) ∧
        ∀ c, loadReads cells load i c →
          (loadRepeats cells load i c → t.store.entry i = ⟨.damaged, some c.number, some c.pendant, c.guarded⟩ ∧
            t.store.cell i = { old with marker := true }) ∧
          (¬ loadRepeats cells load i c →
            t.store.entry i = ⟨.inUse, some c.number, some c.pendant, c.guarded⟩ ∧ t.store.cell i = old)) ∧
      t.store.corrected = (List.range 512).countP (loadCorrects cells load) ∧
      t.store.scrubber = ⟨0, some (if valid then t.config.scrubInterval else 20), false, 0, false⟩ ∧
      t.store.op = none ∧ t.store.class1 = [] ∧ t.store.class2 = [] ∧ t.store.waitConsole = none ∧
      t.store.waitFire = none ∧ t.store.waitAccess = none ∧
      -- the notices and the poller (R84, R205, R206, R207)
      (let damaged := ((List.range 512).filter fun i => decide ((t.store.entry i).cond = .damaged)).map fun i =>
         (⟨.storeDamaged, [.u16 i, .u24 ((t.store.entry i).number.getD 0), .u16 0]⟩ : Notice)
       let invalid := if valid then [] else [(⟨.groupConfigInvalid, [.u16 0]⟩ : Notice)]
       let spent := ((List.range 4).filter fun g => decide (s.spentCell g = .mismatch)).map fun g =>
         (⟨.groupSpentChanged, [.u8 g, .u16 0, .u8 (t.group g).state.ctorIdx, .u16 0, .u16 0]⟩ : Notice)
       let queued := fun (p : Port) (ns : List Notice) => (t.port p).sending = ns.head?.map .notice ∧
         (t.port p).notices = (ns.take 32).tail ∧ (t.port p).lost = decide (32 < ns.length)
       queued .access [] ∧ queued .fire (invalid ++ spent) ∧ queued .console (damaged ++ invalid ++ spent)) ∧
      t.loop.position = 0 ∧ t.loop.passDone = false ∧ t.loop.urgent = [] ∧ (s.nv.region = none → t.loop.exchange = none) ∧
      ∀ r, s.nv.region = some r → ∃ ex, t.loop.exchange = some ex ∧ r.pollList.head? = some ex.node ∧ ex.command = .poll

/-- RESET_ASSERTED and POWER_LOSS: the part stops serving with every output off, and of its state the nonvolatile memory
is left: unchanged where nothing was being written, and else as the write left it, old, new or with a check that does not
match. The configuration region may be left by a record's write or by a window's; each agent-spent cell by its own write;
the slot of the operation that holds the store by the record that the operation writes, or by what it writes back where it
reads; a slot that is DAMAGED is not read, and no other slot changes. That the reset interrupts writes as a loss of power
does, that the roster is empty meanwhile and that the command queue is kept are the model's choice (log 9); the fates of the
writes are operands, a cell that none names being left as it was (log 5); that an operation which reads may leave its slot
with a double error (log 28), and that a lookup reads the lowest slot that meets it (log 60), are the model's too. -/
def Obligations.Power_Loss_Leaves_The_Memory : Prop :=
  ∀ (c : Instr) (left : Interrupted) (s : State), s.serving = true → c = .resetAsserted left ∨ c = .powerLoss left →
    ∃ t, exec c s = .next t ∧ t.serving = false ∧ (∀ pair, t.lineDriven pair = false) ∧ t.alarms.line = false ∧
      driverEnable t = false ∧ (∀ p, (t.port p).sending = none) ∧ t.roster = [] ∧ t.pending = s.pending ∧
      -- the configuration region (R203)
      t.nv.region = (
        let written := fun (new : Records) => match left.config with
          | .old => s.nv.region
          | .new => some new
          | .mixed => none
        match (s.port .console).inFlight.map (·.work) with
        | some (.region _ _) => written s.config
        | some (.window low high _) => written { s.config with windowLow := low, windowHigh := high }
        | _ => s.nv.region) ∧
      -- the agent-spent cells (R206)
      (∀ g, g ≤ 3 →
        (Tab.get none s.nv.spentWrites g = none → t.spentCell g = s.spentCell g) ∧
        ∀ v, Tab.get none s.nv.spentWrites g = some v → t.spentCell g = match Tab.get .old left.cells g with
          | .old => s.spentCell g
          | .new => if v then .set else .clear
          | .mixed => .mismatch) ∧
      -- the slots of the store (R83)
      (let untouched := ∀ k, t.store.cell k = s.store.cell k
       let written := fun (i : Nat) (new : Cell) => (∀ k, k ≠ i → t.store.cell k = s.store.cell k) ∧
         t.store.cell i = match left.slot with
           | .old => s.store.cell i
           | .new => new
           | .mixed => { s.store.cell i with contents := .unreadable }
       let read := fun (i : Nat) =>
         ((s.store.entry i).cond = .damaged → untouched) ∧ ((s.store.entry i).cond ≠ .damaged → written i (s.store.cell i))
       (s.store.op = none → t.store.cells = s.store.cells) ∧
       (∀ p i k, s.store.op = some (.port p (.write i k)) →
         written i ⟨false, .record { k with guarded := if p = .access then false else k.guarded }⟩) ∧
       (∀ p i, s.store.op = some (.port p (.erase i)) → written i ⟨false, .empty⟩) ∧
       (∀ p i cs, s.store.op = some (.port p (.modify i cs)) →
         let asked := if p = .access then cs.filter fun c => !decide (c = .guarded true) else cs
         (∀ k new, (s.store.cell i).contents = .record k → applyChanges asked k = some new →
           s.store.duplicate i new = false → written i ⟨false, .record new⟩) ∧
         ((∀ k new, (s.store.cell i).contents = .record k → applyChanges asked k = some new →
           s.store.duplicate i new = true) → read i)) ∧
       (∀ p i, s.store.op = some (.port p (.read i)) → read i) ∧
       (∀ i, s.store.op = some (.scrub i) → read i) ∧
       ∀ meets : IndexEntry → Bool,
         ((∃ l dropped, s.store.op = some (.lookup l dropped) ∧ meets = fun e => e.number == some l.credential) ∨
           ∃ q, s.store.op = some (.pendant q) ∧ meets = fun e => !(q.pendant == 0) && e.pendant == some q.pendant) →
         match s.store.index.find? fun e => meets e.2 with
         | some e => read e.1
         | none => untouched)
end

