-- ==== Sys2Proof/Laws/Tab.lean ====
section
/-! SUPPORT. The laws of tables: a read after a write, and that every write keeps the canonical form. -/

namespace Sys2Proof

variable {α : Type}

@[simp] theorem Tab.get_nil (d : α) (i : Nat) : Tab.get d [] i = d := rfl

theorem Tab.get_put_same (d : α) (t : Tab α) (i : Nat) (v : α) : Tab.get d (Tab.put t i v) i = v := by
  induction t with
  | nil => simp [Tab.put, Tab.get]
  | cons e t ih =>
    obtain ⟨j, w⟩ := e
    unfold Tab.put
    split
    · simp [Tab.get]
    · split
      · simp [Tab.get]
      · rename_i h1 h2
        simp [Tab.get, h2, ih]

theorem Tab.get_put_other (d : α) (t : Tab α) {i j : Nat} (v : α) (h : j ≠ i) :
    Tab.get d (Tab.put t i v) j = Tab.get d t j := by
  induction t with
  | nil => simp [Tab.put, Tab.get, h]
  | cons e t ih =>
    obtain ⟨k, w⟩ := e
    unfold Tab.put
    split
    · simp [Tab.get, h]
    · split
      · rename_i h1 h2
        subst h2
        simp [Tab.get, h]
      · simp [Tab.get, ih]

theorem Tab.get_drop_same (d : α) (t : Tab α) (i : Nat) : Tab.get d (Tab.drop t i) i = d := by
  induction t with
  | nil => rfl
  | cons e t ih =>
    obtain ⟨j, w⟩ := e
    by_cases h : j = i
    · subst h; simpa [Tab.drop] using ih
    · have : i ≠ j := fun e => h e.symm
      simp [Tab.drop, h, Tab.get, this]
      simpa [Tab.drop] using ih

theorem Tab.get_drop_other (d : α) (t : Tab α) {i j : Nat} (h : j ≠ i) :
    Tab.get d (Tab.drop t i) j = Tab.get d t j := by
  induction t with
  | nil => rfl
  | cons e t ih =>
    obtain ⟨k, w⟩ := e
    by_cases hk : k = i
    · subst hk
      simp only [Tab.drop, List.filter_cons, beq_self_eq_true, Bool.not_true, Bool.false_eq_true, if_false]
      simp only [Tab.drop] at ih
      rw [ih]
      simp [Tab.get, h]
    · simp only [Tab.drop, List.filter_cons] at *
      simp [hk, Tab.get, ih]

/-- A record read where it was written is the record written. -/
@[simp] theorem Tab.get_set_same [DecidableEq α] (d : α) (t : Tab α) (i : Nat) (v : α) :
    Tab.get d (Tab.set d t i v) i = v := by
  unfold Tab.set
  split
  · rename_i h; rw [Tab.get_drop_same, h]
  · exact Tab.get_put_same d t i v

/-- A write leaves every other record as it was. -/
theorem Tab.get_set_other [DecidableEq α] (d : α) (t : Tab α) {i j : Nat} (v : α) (h : j ≠ i) :
    Tab.get d (Tab.set d t i v) j = Tab.get d t j := by
  unfold Tab.set
  split
  · exact Tab.get_drop_other d t h
  · exact Tab.get_put_other d t v h

/-- A read after a write. -/
theorem Tab.get_set [DecidableEq α] (d : α) (t : Tab α) (i j : Nat) (v : α) :
    Tab.get d (Tab.set d t i v) j = if j = i then v else Tab.get d t j := by
  by_cases h : j = i
  · subst h; simp
  · rw [if_neg h, Tab.get_set_other d t v h]

/-- What a write leaves, where the table's own default differs from the default read with: the entry listed or none. -/
theorem Tab.get_set_any [DecidableEq α] (d e : α) (t : Tab α) {i j : Nat} (v : α) (h : j ≠ i) :
    Tab.get e (Tab.set d t i v) j = Tab.get e t j := by
  unfold Tab.set
  split
  · exact Tab.get_drop_other e t h
  · exact Tab.get_put_other e t v h

theorem Tab.rising_weaken (lo : Option Nat) (t : Tab α) (h : Tab.rising lo t = true) : Tab.rising none t = true := by
  cases t with
  | nil => rfl
  | cons e t =>
    obtain ⟨j, w⟩ := e
    cases lo <;> simp_all [Tab.rising]

theorem Tab.rising_lower {k l : Nat} (t : Tab α) (hkl : k < l) (h : Tab.rising (some l) t = true) :
    Tab.rising (some k) t = true := by
  cases t with
  | nil => rfl
  | cons e t =>
    obtain ⟨j, w⟩ := e
    simp only [Tab.rising, Bool.and_eq_true, decide_eq_true_eq] at h ⊢
    exact ⟨by omega, h.2⟩

theorem Tab.rising_put (lo : Option Nat) (t : Tab α) (i : Nat) (v : α) (hi : ∀ k, lo = some k → k < i)
    (h : Tab.rising lo t = true) : Tab.rising lo (Tab.put t i v) = true := by
  induction t generalizing lo with
  | nil => cases lo <;> simp_all [Tab.put, Tab.rising]
  | cons e t ih =>
    obtain ⟨j, w⟩ := e
    unfold Tab.put
    simp only [Tab.rising, Bool.and_eq_true] at h
    split
    · rename_i hij
      simp only [Tab.rising, Bool.and_eq_true, decide_eq_true_eq]
      refine ⟨?_, hij, h.2⟩
      cases lo <;> simp_all
    · split
      · rename_i h1 h2
        subst h2
        simp only [Tab.rising, Bool.and_eq_true]
        exact h
      · rename_i h1 h2
        simp only [Tab.rising, Bool.and_eq_true]
        exact ⟨h.1, ih (some j) (by intro k hk; cases hk; omega) h.2⟩

theorem Tab.rising_filter (lo : Option Nat) (t : Tab α) (p : Nat × α → Bool) (h : Tab.rising lo t = true) :
    Tab.rising lo (t.filter p) = true := by
  induction t generalizing lo with
  | nil => rfl
  | cons e t ih =>
    obtain ⟨j, w⟩ := e
    simp only [Tab.rising, Bool.and_eq_true] at h
    by_cases hp : p (j, w) = true
    · simp only [List.filter_cons, hp, if_true, Tab.rising, Bool.and_eq_true]
      exact ⟨h.1, ih (some j) h.2⟩
    · simp only [List.filter_cons, hp]
      cases lo with
      | none => exact Tab.rising_weaken _ _ (ih (some j) h.2)
      | some k =>
        have hk : k < j := by simpa using h.1
        exact Tab.rising_lower _ hk (ih (some j) h.2)

theorem Tab.all_put (t : Tab α) (i : Nat) (v : α) (p : Nat × α → Bool) (hv : p (i, v) = true) (h : t.all p = true) :
    (Tab.put t i v).all p = true := by
  induction t with
  | nil => simp [Tab.put, hv]
  | cons e t ih =>
    obtain ⟨j, w⟩ := e
    simp only [List.all_cons, Bool.and_eq_true] at h
    unfold Tab.put
    split
    · simp [hv, h.1, h.2]
    · split
      · simp [hv, h.2]
      · simp only [List.all_cons, Bool.and_eq_true]
        exact ⟨h.1, ih h.2⟩

/-- A write keeps the canonical form. -/
theorem Tab.wf_set [DecidableEq α] (d : Nat → α) (t : Tab α) (i : Nat) (v : α) (h : Tab.wf d t = true) :
    Tab.wf d (Tab.set (d i) t i v) = true := by
  unfold Tab.wf at h ⊢
  simp only [Bool.and_eq_true] at h ⊢
  unfold Tab.set
  split
  · exact ⟨Tab.rising_filter none t _ h.1, List.all_eq_true.mpr fun e he =>
      List.all_eq_true.mp h.2 e ((List.mem_filter.mp he).1)⟩
  · rename_i hv
    exact ⟨Tab.rising_put none t i v (by simp) h.1, Tab.all_put t i v _ (by simp [hv]) h.2⟩

/-- Leaving entries out keeps the canonical form. -/
theorem Tab.wf_filter [DecidableEq α] (d : Nat → α) (t : Tab α) (p : Nat × α → Bool) (h : Tab.wf d t = true) :
    Tab.wf d (t.filter p) = true := by
  unfold Tab.wf at h ⊢
  simp only [Bool.and_eq_true] at h ⊢
  exact ⟨Tab.rising_filter none t p h.1, List.all_eq_true.mpr fun e he =>
    List.all_eq_true.mp h.2 e ((List.mem_filter.mp he).1)⟩

@[simp] theorem Tab.wf_nil [DecidableEq α] (d : Nat → α) : Tab.wf d ([] : Tab α) = true := rfl

/-- A key that no entry has holds the default. -/
theorem Tab.get_absent (d : α) (t : Tab α) (i : Nat) (h : (t.any fun e => e.1 == i) = false) : Tab.get d t i = d := by
  induction t with
  | nil => rfl
  | cons e t ih =>
    simp only [List.any_cons, Bool.or_eq_false_iff, beq_eq_false_iff_ne] at h
    simp [Tab.get, Ne.symm h.1, ih h.2]

/-- What a key holds beside the default is listed. -/
theorem Tab.mem_of_get (d : α) (t : Tab α) (i : Nat) (h : Tab.get d t i ≠ d) : (i, Tab.get d t i) ∈ t := by
  induction t with
  | nil => exact absurd rfl h
  | cons e t ih =>
    obtain ⟨j, w⟩ := e
    by_cases hj : i = j
    · subst hj; simp [Tab.get]
    · simp only [Tab.get, hj, if_false] at h ⊢
      exact List.mem_cons_of_mem _ (ih h)

theorem Tab.rising_above {lo : Nat} {t : Tab α} (h : Tab.rising (some lo) t = true) : ∀ e ∈ t, lo < e.1 := by
  induction t generalizing lo with
  | nil => simp
  | cons e t ih =>
    simp only [Tab.rising, Bool.and_eq_true, decide_eq_true_eq] at h
    intro x hx
    rcases List.mem_cons.mp hx with rfl | hx
    · exact h.1
    · exact Nat.lt_trans h.1 (ih h.2 x hx)

/-- In a table of rising keys an entry is what its key holds. -/
theorem Tab.get_of_mem (d : α) {lo : Option Nat} {t : Tab α} (h : Tab.rising lo t = true) {i : Nat} {v : α}
    (m : (i, v) ∈ t) : Tab.get d t i = v := by
  induction t generalizing lo with
  | nil => cases m
  | cons e t ih =>
    obtain ⟨j, w⟩ := e
    simp only [Tab.rising, Bool.and_eq_true] at h
    rcases List.mem_cons.mp m with e | m
    · cases e; simp [Tab.get]
    · have : i ≠ j := Nat.ne_of_gt (Tab.rising_above h.2 _ m)
      simp [Tab.get, this, ih h.2 m]

/-- The keys of rising entries that meet a condition, in order, are those of a range that holds them all. -/
theorem Tab.keys_filter (d : α) (t : Tab α) (n : Nat) (p : α → Bool) (h : Tab.rising none t = true) (hd : p d = false)
    (hn : ∀ e ∈ t, e.1 < n) :
    (t.filter fun e => p e.2).map (·.1) = (List.range n).filter fun i => p (Tab.get d t i) := by
  have up : ∀ (lo : Option Nat) (t : Tab α), Tab.rising lo t = true → (t.map (·.1)).Pairwise (· < ·) := by
    intro lo t
    induction t generalizing lo with
    | nil => simp
    | cons e t ih =>
      intro h
      simp only [Tab.rising, Bool.and_eq_true] at h
      simp only [List.map_cons, List.pairwise_cons, List.mem_map, forall_exists_index, and_imp]
      exact ⟨fun a x hx ha => ha ▸ Tab.rising_above h.2 x hx, ih _ h.2⟩
  refine List.Perm.eq_of_pairwise (le := (· < ·)) (fun a b _ _ h1 h2 => absurd h1 (Nat.lt_asymm h2)) ?_ ?_ ?_
  · exact (up none t h).sublist ((List.filter_sublist (l := t)).map _)
  · exact List.pairwise_lt_range.sublist List.filter_sublist
  · refine (List.perm_ext_iff_of_nodup ?_ ?_).mpr fun i => ?_
    · exact ((up none t h).sublist ((List.filter_sublist (l := t)).map _)).imp Nat.ne_of_lt
    · exact List.nodup_range.sublist List.filter_sublist
    · simp only [List.mem_map, List.mem_filter, List.mem_range]
      constructor
      · rintro ⟨⟨j, v⟩, ⟨m, hp⟩, rfl⟩
        exact ⟨hn _ m, by rw [Tab.get_of_mem d h m]; exact hp⟩
      · rintro ⟨-, hp⟩
        have : Tab.get d t i ≠ d := fun e => by rw [e, hd] at hp; cases hp
        exact ⟨_, ⟨Tab.mem_of_get d t i this, hp⟩, rfl⟩

end Sys2Proof
end

