-- ==== Sys2Proof/Laws/State.lean ====
section
/-! SUPPORT. One lemma for each field and each update of the state, and the reads after the writes of the numbered
records. -/

namespace Sys2Proof.Machine

/-! ### `putZone` changes zones -/

@[simp] theorem putZone_serving (z : Nat) (v : ZoneCond) (s : State) : (putZone z v s).serving = s.serving := rfl
@[simp] theorem putZone_clock (z : Nat) (v : ZoneCond) (s : State) : (putZone z v s).clock = s.clock := rfl
@[simp] theorem putZone_configValid (z : Nat) (v : ZoneCond) (s : State) : (putZone z v s).configValid = s.configValid := rfl
@[simp] theorem putZone_config (z : Nat) (v : ZoneCond) (s : State) : (putZone z v s).config = s.config := rfl
@[simp] theorem putZone_nv (z : Nat) (v : ZoneCond) (s : State) : (putZone z v s).nv = s.nv := rfl
@[simp] theorem putZone_roster (z : Nat) (v : ZoneCond) (s : State) : (putZone z v s).roster = s.roster := rfl
@[simp] theorem putZone_doors (z : Nat) (v : ZoneCond) (s : State) : (putZone z v s).doors = s.doors := rfl
@[simp] theorem putZone_store (z : Nat) (v : ZoneCond) (s : State) : (putZone z v s).store = s.store := rfl
@[simp] theorem putZone_afterHours (z : Nat) (v : ZoneCond) (s : State) : (putZone z v s).afterHours = s.afterHours := rfl
@[simp] theorem putZone_release (z : Nat) (v : ZoneCond) (s : State) : (putZone z v s).release = s.release := rfl
@[simp] theorem putZone_alarms (z : Nat) (v : ZoneCond) (s : State) : (putZone z v s).alarms = s.alarms := rfl
@[simp] theorem putZone_loop (z : Nat) (v : ZoneCond) (s : State) : (putZone z v s).loop = s.loop := rfl
@[simp] theorem putZone_loopTest (z : Nat) (v : ZoneCond) (s : State) : (putZone z v s).loopTest = s.loopTest := rfl
@[simp] theorem putZone_points (z : Nat) (v : ZoneCond) (s : State) : (putZone z v s).points = s.points := rfl
@[simp] theorem putZone_ports (z : Nat) (v : ZoneCond) (s : State) : (putZone z v s).ports = s.ports := rfl
@[simp] theorem putZone_pending (z : Nat) (v : ZoneCond) (s : State) : (putZone z v s).pending = s.pending := rfl

/-! ### `putSlot` changes roster -/

@[simp] theorem putSlot_serving (i : Nat) (v : Slot) (s : State) : (putSlot i v s).serving = s.serving := rfl
@[simp] theorem putSlot_clock (i : Nat) (v : Slot) (s : State) : (putSlot i v s).clock = s.clock := rfl
@[simp] theorem putSlot_zones (i : Nat) (v : Slot) (s : State) : (putSlot i v s).zones = s.zones := rfl
@[simp] theorem putSlot_configValid (i : Nat) (v : Slot) (s : State) : (putSlot i v s).configValid = s.configValid := rfl
@[simp] theorem putSlot_config (i : Nat) (v : Slot) (s : State) : (putSlot i v s).config = s.config := rfl
@[simp] theorem putSlot_nv (i : Nat) (v : Slot) (s : State) : (putSlot i v s).nv = s.nv := rfl
@[simp] theorem putSlot_doors (i : Nat) (v : Slot) (s : State) : (putSlot i v s).doors = s.doors := rfl
@[simp] theorem putSlot_store (i : Nat) (v : Slot) (s : State) : (putSlot i v s).store = s.store := rfl
@[simp] theorem putSlot_afterHours (i : Nat) (v : Slot) (s : State) : (putSlot i v s).afterHours = s.afterHours := rfl
@[simp] theorem putSlot_release (i : Nat) (v : Slot) (s : State) : (putSlot i v s).release = s.release := rfl
@[simp] theorem putSlot_alarms (i : Nat) (v : Slot) (s : State) : (putSlot i v s).alarms = s.alarms := rfl
@[simp] theorem putSlot_loop (i : Nat) (v : Slot) (s : State) : (putSlot i v s).loop = s.loop := rfl
@[simp] theorem putSlot_loopTest (i : Nat) (v : Slot) (s : State) : (putSlot i v s).loopTest = s.loopTest := rfl
@[simp] theorem putSlot_points (i : Nat) (v : Slot) (s : State) : (putSlot i v s).points = s.points := rfl
@[simp] theorem putSlot_ports (i : Nat) (v : Slot) (s : State) : (putSlot i v s).ports = s.ports := rfl
@[simp] theorem putSlot_pending (i : Nat) (v : Slot) (s : State) : (putSlot i v s).pending = s.pending := rfl

/-! ### `putDoor` changes doors -/

@[simp] theorem putDoor_serving (d : Nat) (v : DoorVol) (s : State) : (putDoor d v s).serving = s.serving := rfl
@[simp] theorem putDoor_clock (d : Nat) (v : DoorVol) (s : State) : (putDoor d v s).clock = s.clock := rfl
@[simp] theorem putDoor_zones (d : Nat) (v : DoorVol) (s : State) : (putDoor d v s).zones = s.zones := rfl
@[simp] theorem putDoor_configValid (d : Nat) (v : DoorVol) (s : State) : (putDoor d v s).configValid = s.configValid := rfl
@[simp] theorem putDoor_config (d : Nat) (v : DoorVol) (s : State) : (putDoor d v s).config = s.config := rfl
@[simp] theorem putDoor_nv (d : Nat) (v : DoorVol) (s : State) : (putDoor d v s).nv = s.nv := rfl
@[simp] theorem putDoor_roster (d : Nat) (v : DoorVol) (s : State) : (putDoor d v s).roster = s.roster := rfl
@[simp] theorem putDoor_store (d : Nat) (v : DoorVol) (s : State) : (putDoor d v s).store = s.store := rfl
@[simp] theorem putDoor_afterHours (d : Nat) (v : DoorVol) (s : State) : (putDoor d v s).afterHours = s.afterHours := rfl
@[simp] theorem putDoor_release (d : Nat) (v : DoorVol) (s : State) : (putDoor d v s).release = s.release := rfl
@[simp] theorem putDoor_alarms (d : Nat) (v : DoorVol) (s : State) : (putDoor d v s).alarms = s.alarms := rfl
@[simp] theorem putDoor_loop (d : Nat) (v : DoorVol) (s : State) : (putDoor d v s).loop = s.loop := rfl
@[simp] theorem putDoor_loopTest (d : Nat) (v : DoorVol) (s : State) : (putDoor d v s).loopTest = s.loopTest := rfl
@[simp] theorem putDoor_points (d : Nat) (v : DoorVol) (s : State) : (putDoor d v s).points = s.points := rfl
@[simp] theorem putDoor_ports (d : Nat) (v : DoorVol) (s : State) : (putDoor d v s).ports = s.ports := rfl
@[simp] theorem putDoor_pending (d : Nat) (v : DoorVol) (s : State) : (putDoor d v s).pending = s.pending := rfl

/-! ### `putGroup` changes release -/

@[simp] theorem putGroup_serving (g : Nat) (v : GroupVol) (s : State) : (putGroup g v s).serving = s.serving := rfl
@[simp] theorem putGroup_clock (g : Nat) (v : GroupVol) (s : State) : (putGroup g v s).clock = s.clock := rfl
@[simp] theorem putGroup_zones (g : Nat) (v : GroupVol) (s : State) : (putGroup g v s).zones = s.zones := rfl
@[simp] theorem putGroup_configValid (g : Nat) (v : GroupVol) (s : State) : (putGroup g v s).configValid = s.configValid := rfl
@[simp] theorem putGroup_config (g : Nat) (v : GroupVol) (s : State) : (putGroup g v s).config = s.config := rfl
@[simp] theorem putGroup_nv (g : Nat) (v : GroupVol) (s : State) : (putGroup g v s).nv = s.nv := rfl
@[simp] theorem putGroup_roster (g : Nat) (v : GroupVol) (s : State) : (putGroup g v s).roster = s.roster := rfl
@[simp] theorem putGroup_doors (g : Nat) (v : GroupVol) (s : State) : (putGroup g v s).doors = s.doors := rfl
@[simp] theorem putGroup_store (g : Nat) (v : GroupVol) (s : State) : (putGroup g v s).store = s.store := rfl
@[simp] theorem putGroup_afterHours (g : Nat) (v : GroupVol) (s : State) : (putGroup g v s).afterHours = s.afterHours := rfl
@[simp] theorem putGroup_alarms (g : Nat) (v : GroupVol) (s : State) : (putGroup g v s).alarms = s.alarms := rfl
@[simp] theorem putGroup_loop (g : Nat) (v : GroupVol) (s : State) : (putGroup g v s).loop = s.loop := rfl
@[simp] theorem putGroup_loopTest (g : Nat) (v : GroupVol) (s : State) : (putGroup g v s).loopTest = s.loopTest := rfl
@[simp] theorem putGroup_points (g : Nat) (v : GroupVol) (s : State) : (putGroup g v s).points = s.points := rfl
@[simp] theorem putGroup_ports (g : Nat) (v : GroupVol) (s : State) : (putGroup g v s).ports = s.ports := rfl
@[simp] theorem putGroup_pending (g : Nat) (v : GroupVol) (s : State) : (putGroup g v s).pending = s.pending := rfl

/-! ### `putLine` changes release -/

@[simp] theorem putLine_serving (p : Nat) (v : Bool) (s : State) : (putLine p v s).serving = s.serving := rfl
@[simp] theorem putLine_clock (p : Nat) (v : Bool) (s : State) : (putLine p v s).clock = s.clock := rfl
@[simp] theorem putLine_zones (p : Nat) (v : Bool) (s : State) : (putLine p v s).zones = s.zones := rfl
@[simp] theorem putLine_configValid (p : Nat) (v : Bool) (s : State) : (putLine p v s).configValid = s.configValid := rfl
@[simp] theorem putLine_config (p : Nat) (v : Bool) (s : State) : (putLine p v s).config = s.config := rfl
@[simp] theorem putLine_nv (p : Nat) (v : Bool) (s : State) : (putLine p v s).nv = s.nv := rfl
@[simp] theorem putLine_roster (p : Nat) (v : Bool) (s : State) : (putLine p v s).roster = s.roster := rfl
@[simp] theorem putLine_doors (p : Nat) (v : Bool) (s : State) : (putLine p v s).doors = s.doors := rfl
@[simp] theorem putLine_store (p : Nat) (v : Bool) (s : State) : (putLine p v s).store = s.store := rfl
@[simp] theorem putLine_afterHours (p : Nat) (v : Bool) (s : State) : (putLine p v s).afterHours = s.afterHours := rfl
@[simp] theorem putLine_alarms (p : Nat) (v : Bool) (s : State) : (putLine p v s).alarms = s.alarms := rfl
@[simp] theorem putLine_loop (p : Nat) (v : Bool) (s : State) : (putLine p v s).loop = s.loop := rfl
@[simp] theorem putLine_loopTest (p : Nat) (v : Bool) (s : State) : (putLine p v s).loopTest = s.loopTest := rfl
@[simp] theorem putLine_points (p : Nat) (v : Bool) (s : State) : (putLine p v s).points = s.points := rfl
@[simp] theorem putLine_ports (p : Nat) (v : Bool) (s : State) : (putLine p v s).ports = s.ports := rfl
@[simp] theorem putLine_pending (p : Nat) (v : Bool) (s : State) : (putLine p v s).pending = s.pending := rfl

/-! ### `putNode` changes loop -/

@[simp] theorem putNode_serving (n : Nat) (v : NodeVol) (s : State) : (putNode n v s).serving = s.serving := rfl
@[simp] theorem putNode_clock (n : Nat) (v : NodeVol) (s : State) : (putNode n v s).clock = s.clock := rfl
@[simp] theorem putNode_zones (n : Nat) (v : NodeVol) (s : State) : (putNode n v s).zones = s.zones := rfl
@[simp] theorem putNode_configValid (n : Nat) (v : NodeVol) (s : State) : (putNode n v s).configValid = s.configValid := rfl
@[simp] theorem putNode_config (n : Nat) (v : NodeVol) (s : State) : (putNode n v s).config = s.config := rfl
@[simp] theorem putNode_nv (n : Nat) (v : NodeVol) (s : State) : (putNode n v s).nv = s.nv := rfl
@[simp] theorem putNode_roster (n : Nat) (v : NodeVol) (s : State) : (putNode n v s).roster = s.roster := rfl
@[simp] theorem putNode_doors (n : Nat) (v : NodeVol) (s : State) : (putNode n v s).doors = s.doors := rfl
@[simp] theorem putNode_store (n : Nat) (v : NodeVol) (s : State) : (putNode n v s).store = s.store := rfl
@[simp] theorem putNode_afterHours (n : Nat) (v : NodeVol) (s : State) : (putNode n v s).afterHours = s.afterHours := rfl
@[simp] theorem putNode_release (n : Nat) (v : NodeVol) (s : State) : (putNode n v s).release = s.release := rfl
@[simp] theorem putNode_alarms (n : Nat) (v : NodeVol) (s : State) : (putNode n v s).alarms = s.alarms := rfl
@[simp] theorem putNode_loopTest (n : Nat) (v : NodeVol) (s : State) : (putNode n v s).loopTest = s.loopTest := rfl
@[simp] theorem putNode_points (n : Nat) (v : NodeVol) (s : State) : (putNode n v s).points = s.points := rfl
@[simp] theorem putNode_ports (n : Nat) (v : NodeVol) (s : State) : (putNode n v s).ports = s.ports := rfl
@[simp] theorem putNode_pending (n : Nat) (v : NodeVol) (s : State) : (putNode n v s).pending = s.pending := rfl

/-! ### `onLoop` changes loop -/

@[simp] theorem onLoop_serving (f : Loop → Loop) (s : State) : (onLoop f s).serving = s.serving := rfl
@[simp] theorem onLoop_clock (f : Loop → Loop) (s : State) : (onLoop f s).clock = s.clock := rfl
@[simp] theorem onLoop_zones (f : Loop → Loop) (s : State) : (onLoop f s).zones = s.zones := rfl
@[simp] theorem onLoop_configValid (f : Loop → Loop) (s : State) : (onLoop f s).configValid = s.configValid := rfl
@[simp] theorem onLoop_config (f : Loop → Loop) (s : State) : (onLoop f s).config = s.config := rfl
@[simp] theorem onLoop_nv (f : Loop → Loop) (s : State) : (onLoop f s).nv = s.nv := rfl
@[simp] theorem onLoop_roster (f : Loop → Loop) (s : State) : (onLoop f s).roster = s.roster := rfl
@[simp] theorem onLoop_doors (f : Loop → Loop) (s : State) : (onLoop f s).doors = s.doors := rfl
@[simp] theorem onLoop_store (f : Loop → Loop) (s : State) : (onLoop f s).store = s.store := rfl
@[simp] theorem onLoop_afterHours (f : Loop → Loop) (s : State) : (onLoop f s).afterHours = s.afterHours := rfl
@[simp] theorem onLoop_release (f : Loop → Loop) (s : State) : (onLoop f s).release = s.release := rfl
@[simp] theorem onLoop_alarms (f : Loop → Loop) (s : State) : (onLoop f s).alarms = s.alarms := rfl
@[simp] theorem onLoop_loopTest (f : Loop → Loop) (s : State) : (onLoop f s).loopTest = s.loopTest := rfl
@[simp] theorem onLoop_points (f : Loop → Loop) (s : State) : (onLoop f s).points = s.points := rfl
@[simp] theorem onLoop_ports (f : Loop → Loop) (s : State) : (onLoop f s).ports = s.ports := rfl
@[simp] theorem onLoop_pending (f : Loop → Loop) (s : State) : (onLoop f s).pending = s.pending := rfl

/-! ### `putGrant` changes afterHours -/

@[simp] theorem putGrant_serving (g : Nat) (v : Grant) (s : State) : (putGrant g v s).serving = s.serving := rfl
@[simp] theorem putGrant_clock (g : Nat) (v : Grant) (s : State) : (putGrant g v s).clock = s.clock := rfl
@[simp] theorem putGrant_zones (g : Nat) (v : Grant) (s : State) : (putGrant g v s).zones = s.zones := rfl
@[simp] theorem putGrant_configValid (g : Nat) (v : Grant) (s : State) : (putGrant g v s).configValid = s.configValid := rfl
@[simp] theorem putGrant_config (g : Nat) (v : Grant) (s : State) : (putGrant g v s).config = s.config := rfl
@[simp] theorem putGrant_nv (g : Nat) (v : Grant) (s : State) : (putGrant g v s).nv = s.nv := rfl
@[simp] theorem putGrant_roster (g : Nat) (v : Grant) (s : State) : (putGrant g v s).roster = s.roster := rfl
@[simp] theorem putGrant_doors (g : Nat) (v : Grant) (s : State) : (putGrant g v s).doors = s.doors := rfl
@[simp] theorem putGrant_store (g : Nat) (v : Grant) (s : State) : (putGrant g v s).store = s.store := rfl
@[simp] theorem putGrant_release (g : Nat) (v : Grant) (s : State) : (putGrant g v s).release = s.release := rfl
@[simp] theorem putGrant_alarms (g : Nat) (v : Grant) (s : State) : (putGrant g v s).alarms = s.alarms := rfl
@[simp] theorem putGrant_loop (g : Nat) (v : Grant) (s : State) : (putGrant g v s).loop = s.loop := rfl
@[simp] theorem putGrant_loopTest (g : Nat) (v : Grant) (s : State) : (putGrant g v s).loopTest = s.loopTest := rfl
@[simp] theorem putGrant_points (g : Nat) (v : Grant) (s : State) : (putGrant g v s).points = s.points := rfl
@[simp] theorem putGrant_ports (g : Nat) (v : Grant) (s : State) : (putGrant g v s).ports = s.ports := rfl
@[simp] theorem putGrant_pending (g : Nat) (v : Grant) (s : State) : (putGrant g v s).pending = s.pending := rfl

/-! ### `putPlace` changes afterHours -/

@[simp] theorem putPlace_serving (i : Nat) (v : Option Place) (s : State) : (putPlace i v s).serving = s.serving := rfl
@[simp] theorem putPlace_clock (i : Nat) (v : Option Place) (s : State) : (putPlace i v s).clock = s.clock := rfl
@[simp] theorem putPlace_zones (i : Nat) (v : Option Place) (s : State) : (putPlace i v s).zones = s.zones := rfl
@[simp] theorem putPlace_configValid (i : Nat) (v : Option Place) (s : State) : (putPlace i v s).configValid = s.configValid := rfl
@[simp] theorem putPlace_config (i : Nat) (v : Option Place) (s : State) : (putPlace i v s).config = s.config := rfl
@[simp] theorem putPlace_nv (i : Nat) (v : Option Place) (s : State) : (putPlace i v s).nv = s.nv := rfl
@[simp] theorem putPlace_roster (i : Nat) (v : Option Place) (s : State) : (putPlace i v s).roster = s.roster := rfl
@[simp] theorem putPlace_doors (i : Nat) (v : Option Place) (s : State) : (putPlace i v s).doors = s.doors := rfl
@[simp] theorem putPlace_store (i : Nat) (v : Option Place) (s : State) : (putPlace i v s).store = s.store := rfl
@[simp] theorem putPlace_release (i : Nat) (v : Option Place) (s : State) : (putPlace i v s).release = s.release := rfl
@[simp] theorem putPlace_alarms (i : Nat) (v : Option Place) (s : State) : (putPlace i v s).alarms = s.alarms := rfl
@[simp] theorem putPlace_loop (i : Nat) (v : Option Place) (s : State) : (putPlace i v s).loop = s.loop := rfl
@[simp] theorem putPlace_loopTest (i : Nat) (v : Option Place) (s : State) : (putPlace i v s).loopTest = s.loopTest := rfl
@[simp] theorem putPlace_points (i : Nat) (v : Option Place) (s : State) : (putPlace i v s).points = s.points := rfl
@[simp] theorem putPlace_ports (i : Nat) (v : Option Place) (s : State) : (putPlace i v s).ports = s.ports := rfl
@[simp] theorem putPlace_pending (i : Nat) (v : Option Place) (s : State) : (putPlace i v s).pending = s.pending := rfl

/-! ### `putBase` changes points -/

@[simp] theorem putBase_serving (pt : Nat) (v : Bool) (s : State) : (putBase pt v s).serving = s.serving := rfl
@[simp] theorem putBase_clock (pt : Nat) (v : Bool) (s : State) : (putBase pt v s).clock = s.clock := rfl
@[simp] theorem putBase_zones (pt : Nat) (v : Bool) (s : State) : (putBase pt v s).zones = s.zones := rfl
@[simp] theorem putBase_configValid (pt : Nat) (v : Bool) (s : State) : (putBase pt v s).configValid = s.configValid := rfl
@[simp] theorem putBase_config (pt : Nat) (v : Bool) (s : State) : (putBase pt v s).config = s.config := rfl
@[simp] theorem putBase_nv (pt : Nat) (v : Bool) (s : State) : (putBase pt v s).nv = s.nv := rfl
@[simp] theorem putBase_roster (pt : Nat) (v : Bool) (s : State) : (putBase pt v s).roster = s.roster := rfl
@[simp] theorem putBase_doors (pt : Nat) (v : Bool) (s : State) : (putBase pt v s).doors = s.doors := rfl
@[simp] theorem putBase_store (pt : Nat) (v : Bool) (s : State) : (putBase pt v s).store = s.store := rfl
@[simp] theorem putBase_afterHours (pt : Nat) (v : Bool) (s : State) : (putBase pt v s).afterHours = s.afterHours := rfl
@[simp] theorem putBase_release (pt : Nat) (v : Bool) (s : State) : (putBase pt v s).release = s.release := rfl
@[simp] theorem putBase_alarms (pt : Nat) (v : Bool) (s : State) : (putBase pt v s).alarms = s.alarms := rfl
@[simp] theorem putBase_loop (pt : Nat) (v : Bool) (s : State) : (putBase pt v s).loop = s.loop := rfl
@[simp] theorem putBase_loopTest (pt : Nat) (v : Bool) (s : State) : (putBase pt v s).loopTest = s.loopTest := rfl
@[simp] theorem putBase_ports (pt : Nat) (v : Bool) (s : State) : (putBase pt v s).ports = s.ports := rfl
@[simp] theorem putBase_pending (pt : Nat) (v : Bool) (s : State) : (putBase pt v s).pending = s.pending := rfl

/-! ### `putOverride` changes points -/

@[simp] theorem putOverride_serving (pt : Nat) (v : Override) (s : State) : (putOverride pt v s).serving = s.serving := rfl
@[simp] theorem putOverride_clock (pt : Nat) (v : Override) (s : State) : (putOverride pt v s).clock = s.clock := rfl
@[simp] theorem putOverride_zones (pt : Nat) (v : Override) (s : State) : (putOverride pt v s).zones = s.zones := rfl
@[simp] theorem putOverride_configValid (pt : Nat) (v : Override) (s : State) : (putOverride pt v s).configValid = s.configValid := rfl
@[simp] theorem putOverride_config (pt : Nat) (v : Override) (s : State) : (putOverride pt v s).config = s.config := rfl
@[simp] theorem putOverride_nv (pt : Nat) (v : Override) (s : State) : (putOverride pt v s).nv = s.nv := rfl
@[simp] theorem putOverride_roster (pt : Nat) (v : Override) (s : State) : (putOverride pt v s).roster = s.roster := rfl
@[simp] theorem putOverride_doors (pt : Nat) (v : Override) (s : State) : (putOverride pt v s).doors = s.doors := rfl
@[simp] theorem putOverride_store (pt : Nat) (v : Override) (s : State) : (putOverride pt v s).store = s.store := rfl
@[simp] theorem putOverride_afterHours (pt : Nat) (v : Override) (s : State) : (putOverride pt v s).afterHours = s.afterHours := rfl
@[simp] theorem putOverride_release (pt : Nat) (v : Override) (s : State) : (putOverride pt v s).release = s.release := rfl
@[simp] theorem putOverride_alarms (pt : Nat) (v : Override) (s : State) : (putOverride pt v s).alarms = s.alarms := rfl
@[simp] theorem putOverride_loop (pt : Nat) (v : Override) (s : State) : (putOverride pt v s).loop = s.loop := rfl
@[simp] theorem putOverride_loopTest (pt : Nat) (v : Override) (s : State) : (putOverride pt v s).loopTest = s.loopTest := rfl
@[simp] theorem putOverride_ports (pt : Nat) (v : Override) (s : State) : (putOverride pt v s).ports = s.ports := rfl
@[simp] theorem putOverride_pending (pt : Nat) (v : Override) (s : State) : (putOverride pt v s).pending = s.pending := rfl

/-! ### `putRecords` changes alarms -/

@[simp] theorem putRecords_serving (rs : List AlarmRec) (s : State) : (putRecords rs s).serving = s.serving := rfl
@[simp] theorem putRecords_clock (rs : List AlarmRec) (s : State) : (putRecords rs s).clock = s.clock := rfl
@[simp] theorem putRecords_zones (rs : List AlarmRec) (s : State) : (putRecords rs s).zones = s.zones := rfl
@[simp] theorem putRecords_configValid (rs : List AlarmRec) (s : State) : (putRecords rs s).configValid = s.configValid := rfl
@[simp] theorem putRecords_config (rs : List AlarmRec) (s : State) : (putRecords rs s).config = s.config := rfl
@[simp] theorem putRecords_nv (rs : List AlarmRec) (s : State) : (putRecords rs s).nv = s.nv := rfl
@[simp] theorem putRecords_roster (rs : List AlarmRec) (s : State) : (putRecords rs s).roster = s.roster := rfl
@[simp] theorem putRecords_doors (rs : List AlarmRec) (s : State) : (putRecords rs s).doors = s.doors := rfl
@[simp] theorem putRecords_store (rs : List AlarmRec) (s : State) : (putRecords rs s).store = s.store := rfl
@[simp] theorem putRecords_afterHours (rs : List AlarmRec) (s : State) : (putRecords rs s).afterHours = s.afterHours := rfl
@[simp] theorem putRecords_release (rs : List AlarmRec) (s : State) : (putRecords rs s).release = s.release := rfl
@[simp] theorem putRecords_loop (rs : List AlarmRec) (s : State) : (putRecords rs s).loop = s.loop := rfl
@[simp] theorem putRecords_loopTest (rs : List AlarmRec) (s : State) : (putRecords rs s).loopTest = s.loopTest := rfl
@[simp] theorem putRecords_points (rs : List AlarmRec) (s : State) : (putRecords rs s).points = s.points := rfl
@[simp] theorem putRecords_ports (rs : List AlarmRec) (s : State) : (putRecords rs s).ports = s.ports := rfl
@[simp] theorem putRecords_pending (rs : List AlarmRec) (s : State) : (putRecords rs s).pending = s.pending := rfl

/-! ### `putTest` changes loopTest -/

@[simp] theorem putTest_serving (t : LoopTest) (s : State) : (putTest t s).serving = s.serving := rfl
@[simp] theorem putTest_clock (t : LoopTest) (s : State) : (putTest t s).clock = s.clock := rfl
@[simp] theorem putTest_zones (t : LoopTest) (s : State) : (putTest t s).zones = s.zones := rfl
@[simp] theorem putTest_configValid (t : LoopTest) (s : State) : (putTest t s).configValid = s.configValid := rfl
@[simp] theorem putTest_config (t : LoopTest) (s : State) : (putTest t s).config = s.config := rfl
@[simp] theorem putTest_nv (t : LoopTest) (s : State) : (putTest t s).nv = s.nv := rfl
@[simp] theorem putTest_roster (t : LoopTest) (s : State) : (putTest t s).roster = s.roster := rfl
@[simp] theorem putTest_doors (t : LoopTest) (s : State) : (putTest t s).doors = s.doors := rfl
@[simp] theorem putTest_store (t : LoopTest) (s : State) : (putTest t s).store = s.store := rfl
@[simp] theorem putTest_afterHours (t : LoopTest) (s : State) : (putTest t s).afterHours = s.afterHours := rfl
@[simp] theorem putTest_release (t : LoopTest) (s : State) : (putTest t s).release = s.release := rfl
@[simp] theorem putTest_alarms (t : LoopTest) (s : State) : (putTest t s).alarms = s.alarms := rfl
@[simp] theorem putTest_loop (t : LoopTest) (s : State) : (putTest t s).loop = s.loop := rfl
@[simp] theorem putTest_points (t : LoopTest) (s : State) : (putTest t s).points = s.points := rfl
@[simp] theorem putTest_ports (t : LoopTest) (s : State) : (putTest t s).ports = s.ports := rfl
@[simp] theorem putTest_pending (t : LoopTest) (s : State) : (putTest t s).pending = s.pending := rfl

/-! ### `onStore` changes store -/

@[simp] theorem onStore_serving (f : Store → Store) (s : State) : (onStore f s).serving = s.serving := rfl
@[simp] theorem onStore_clock (f : Store → Store) (s : State) : (onStore f s).clock = s.clock := rfl
@[simp] theorem onStore_zones (f : Store → Store) (s : State) : (onStore f s).zones = s.zones := rfl
@[simp] theorem onStore_configValid (f : Store → Store) (s : State) : (onStore f s).configValid = s.configValid := rfl
@[simp] theorem onStore_config (f : Store → Store) (s : State) : (onStore f s).config = s.config := rfl
@[simp] theorem onStore_nv (f : Store → Store) (s : State) : (onStore f s).nv = s.nv := rfl
@[simp] theorem onStore_roster (f : Store → Store) (s : State) : (onStore f s).roster = s.roster := rfl
@[simp] theorem onStore_doors (f : Store → Store) (s : State) : (onStore f s).doors = s.doors := rfl
@[simp] theorem onStore_afterHours (f : Store → Store) (s : State) : (onStore f s).afterHours = s.afterHours := rfl
@[simp] theorem onStore_release (f : Store → Store) (s : State) : (onStore f s).release = s.release := rfl
@[simp] theorem onStore_alarms (f : Store → Store) (s : State) : (onStore f s).alarms = s.alarms := rfl
@[simp] theorem onStore_loop (f : Store → Store) (s : State) : (onStore f s).loop = s.loop := rfl
@[simp] theorem onStore_loopTest (f : Store → Store) (s : State) : (onStore f s).loopTest = s.loopTest := rfl
@[simp] theorem onStore_points (f : Store → Store) (s : State) : (onStore f s).points = s.points := rfl
@[simp] theorem onStore_ports (f : Store → Store) (s : State) : (onStore f s).ports = s.ports := rfl
@[simp] theorem onStore_pending (f : Store → Store) (s : State) : (onStore f s).pending = s.pending := rfl

/-! ### `onConfig` changes config -/

@[simp] theorem onConfig_serving (f : Records → Records) (s : State) : (onConfig f s).serving = s.serving := rfl
@[simp] theorem onConfig_clock (f : Records → Records) (s : State) : (onConfig f s).clock = s.clock := rfl
@[simp] theorem onConfig_zones (f : Records → Records) (s : State) : (onConfig f s).zones = s.zones := rfl
@[simp] theorem onConfig_configValid (f : Records → Records) (s : State) : (onConfig f s).configValid = s.configValid := rfl
@[simp] theorem onConfig_nv (f : Records → Records) (s : State) : (onConfig f s).nv = s.nv := rfl
@[simp] theorem onConfig_roster (f : Records → Records) (s : State) : (onConfig f s).roster = s.roster := rfl
@[simp] theorem onConfig_doors (f : Records → Records) (s : State) : (onConfig f s).doors = s.doors := rfl
@[simp] theorem onConfig_store (f : Records → Records) (s : State) : (onConfig f s).store = s.store := rfl
@[simp] theorem onConfig_afterHours (f : Records → Records) (s : State) : (onConfig f s).afterHours = s.afterHours := rfl
@[simp] theorem onConfig_release (f : Records → Records) (s : State) : (onConfig f s).release = s.release := rfl
@[simp] theorem onConfig_alarms (f : Records → Records) (s : State) : (onConfig f s).alarms = s.alarms := rfl
@[simp] theorem onConfig_loop (f : Records → Records) (s : State) : (onConfig f s).loop = s.loop := rfl
@[simp] theorem onConfig_loopTest (f : Records → Records) (s : State) : (onConfig f s).loopTest = s.loopTest := rfl
@[simp] theorem onConfig_points (f : Records → Records) (s : State) : (onConfig f s).points = s.points := rfl
@[simp] theorem onConfig_ports (f : Records → Records) (s : State) : (onConfig f s).ports = s.ports := rfl
@[simp] theorem onConfig_pending (f : Records → Records) (s : State) : (onConfig f s).pending = s.pending := rfl

/-! ### `onPort` changes ports -/

@[simp] theorem onPort_serving (p : Port) (f : PortState → PortState) (s : State) : (onPort p f s).serving = s.serving := rfl
@[simp] theorem onPort_clock (p : Port) (f : PortState → PortState) (s : State) : (onPort p f s).clock = s.clock := rfl
@[simp] theorem onPort_zones (p : Port) (f : PortState → PortState) (s : State) : (onPort p f s).zones = s.zones := rfl
@[simp] theorem onPort_configValid (p : Port) (f : PortState → PortState) (s : State) : (onPort p f s).configValid = s.configValid := rfl
@[simp] theorem onPort_config (p : Port) (f : PortState → PortState) (s : State) : (onPort p f s).config = s.config := rfl
@[simp] theorem onPort_nv (p : Port) (f : PortState → PortState) (s : State) : (onPort p f s).nv = s.nv := rfl
@[simp] theorem onPort_roster (p : Port) (f : PortState → PortState) (s : State) : (onPort p f s).roster = s.roster := rfl
@[simp] theorem onPort_doors (p : Port) (f : PortState → PortState) (s : State) : (onPort p f s).doors = s.doors := rfl
@[simp] theorem onPort_store (p : Port) (f : PortState → PortState) (s : State) : (onPort p f s).store = s.store := rfl
@[simp] theorem onPort_afterHours (p : Port) (f : PortState → PortState) (s : State) : (onPort p f s).afterHours = s.afterHours := rfl
@[simp] theorem onPort_release (p : Port) (f : PortState → PortState) (s : State) : (onPort p f s).release = s.release := rfl
@[simp] theorem onPort_alarms (p : Port) (f : PortState → PortState) (s : State) : (onPort p f s).alarms = s.alarms := rfl
@[simp] theorem onPort_loop (p : Port) (f : PortState → PortState) (s : State) : (onPort p f s).loop = s.loop := rfl
@[simp] theorem onPort_loopTest (p : Port) (f : PortState → PortState) (s : State) : (onPort p f s).loopTest = s.loopTest := rfl
@[simp] theorem onPort_points (p : Port) (f : PortState → PortState) (s : State) : (onPort p f s).points = s.points := rfl
@[simp] theorem onPort_pending (p : Port) (f : PortState → PortState) (s : State) : (onPort p f s).pending = s.pending := rfl

/-! ### `settlePorts` changes ports -/

@[simp] theorem settlePorts_serving (s : State) : (settlePorts s).serving = s.serving := rfl
@[simp] theorem settlePorts_clock (s : State) : (settlePorts s).clock = s.clock := rfl
@[simp] theorem settlePorts_zones (s : State) : (settlePorts s).zones = s.zones := rfl
@[simp] theorem settlePorts_configValid (s : State) : (settlePorts s).configValid = s.configValid := rfl
@[simp] theorem settlePorts_config (s : State) : (settlePorts s).config = s.config := rfl
@[simp] theorem settlePorts_nv (s : State) : (settlePorts s).nv = s.nv := rfl
@[simp] theorem settlePorts_roster (s : State) : (settlePorts s).roster = s.roster := rfl
@[simp] theorem settlePorts_doors (s : State) : (settlePorts s).doors = s.doors := rfl
@[simp] theorem settlePorts_store (s : State) : (settlePorts s).store = s.store := rfl
@[simp] theorem settlePorts_afterHours (s : State) : (settlePorts s).afterHours = s.afterHours := rfl
@[simp] theorem settlePorts_release (s : State) : (settlePorts s).release = s.release := rfl
@[simp] theorem settlePorts_alarms (s : State) : (settlePorts s).alarms = s.alarms := rfl
@[simp] theorem settlePorts_loop (s : State) : (settlePorts s).loop = s.loop := rfl
@[simp] theorem settlePorts_loopTest (s : State) : (settlePorts s).loopTest = s.loopTest := rfl
@[simp] theorem settlePorts_points (s : State) : (settlePorts s).points = s.points := rfl
@[simp] theorem settlePorts_pending (s : State) : (settlePorts s).pending = s.pending := rfl

/-! ### Reads after writes -/

@[simp] theorem putZone_zone_same (z : Nat) (v : ZoneCond) (s : State) : (putZone z v s).zone z = v :=
  Tab.get_set_same _ _ _ _
theorem putZone_zone_other {z j : Nat} (v : ZoneCond) (s : State) (h : j ≠ z) :
    (putZone z v s).zone j = s.zone j :=
  Tab.get_set_other _ _ _ h
theorem putZone_zone (z j : Nat) (v : ZoneCond) (s : State) :
    (putZone z v s).zone j = if j = z then v else s.zone j :=
  Tab.get_set _ _ _ _ _

@[simp] theorem putSlot_slot_same (i : Nat) (v : Slot) (s : State) : (putSlot i v s).slot i = v :=
  Tab.get_set_same _ _ _ _
theorem putSlot_slot_other {i j : Nat} (v : Slot) (s : State) (h : j ≠ i) :
    (putSlot i v s).slot j = s.slot j :=
  Tab.get_set_other _ _ _ h
theorem putSlot_slot (i j : Nat) (v : Slot) (s : State) :
    (putSlot i v s).slot j = if j = i then v else s.slot j :=
  Tab.get_set _ _ _ _ _

@[simp] theorem putDoor_door_same (d : Nat) (v : DoorVol) (s : State) : (putDoor d v s).door d = v :=
  Tab.get_set_same _ _ _ _
theorem putDoor_door_other {d j : Nat} (v : DoorVol) (s : State) (h : j ≠ d) :
    (putDoor d v s).door j = s.door j :=
  Tab.get_set_other _ _ _ h
theorem putDoor_door (d j : Nat) (v : DoorVol) (s : State) :
    (putDoor d v s).door j = if j = d then v else s.door j :=
  Tab.get_set _ _ _ _ _

@[simp] theorem putGroup_group_same (g : Nat) (v : GroupVol) (s : State) : (putGroup g v s).group g = v :=
  Tab.get_set_same _ _ _ _
theorem putGroup_group_other {g j : Nat} (v : GroupVol) (s : State) (h : j ≠ g) :
    (putGroup g v s).group j = s.group j :=
  Tab.get_set_other _ _ _ h
theorem putGroup_group (g j : Nat) (v : GroupVol) (s : State) :
    (putGroup g v s).group j = if j = g then v else s.group j :=
  Tab.get_set _ _ _ _ _

@[simp] theorem putNode_node_same (n : Nat) (v : NodeVol) (s : State) : (putNode n v s).node n = v :=
  Tab.get_set_same _ _ _ _
theorem putNode_node_other {n j : Nat} (v : NodeVol) (s : State) (h : j ≠ n) :
    (putNode n v s).node j = s.node j :=
  Tab.get_set_other _ _ _ h
theorem putNode_node (n j : Nat) (v : NodeVol) (s : State) :
    (putNode n v s).node j = if j = n then v else s.node j :=
  Tab.get_set _ _ _ _ _

@[simp] theorem putGrant_grant_same (g : Nat) (v : Grant) (s : State) : (putGrant g v s).grant g = v :=
  Tab.get_set_same _ _ _ _
theorem putGrant_grant_other {g j : Nat} (v : Grant) (s : State) (h : j ≠ g) :
    (putGrant g v s).grant j = s.grant j :=
  Tab.get_set_other _ _ _ h
theorem putGrant_grant (g j : Nat) (v : Grant) (s : State) :
    (putGrant g v s).grant j = if j = g then v else s.grant j :=
  Tab.get_set _ _ _ _ _

@[simp] theorem putPlace_place_same (i : Nat) (v : Option Place) (s : State) : (putPlace i v s).place i = v :=
  Tab.get_set_same _ _ _ _
theorem putPlace_place_other {i j : Nat} (v : Option Place) (s : State) (h : j ≠ i) :
    (putPlace i v s).place j = s.place j :=
  Tab.get_set_other _ _ _ h
theorem putPlace_place (i j : Nat) (v : Option Place) (s : State) :
    (putPlace i v s).place j = if j = i then v else s.place j :=
  Tab.get_set _ _ _ _ _

@[simp] theorem putBase_base_same (pt : Nat) (v : Bool) (s : State) : (putBase pt v s).base pt = v :=
  Tab.get_set_same _ _ _ _
theorem putBase_base_other {pt j : Nat} (v : Bool) (s : State) (h : j ≠ pt) :
    (putBase pt v s).base j = s.base j :=
  Tab.get_set_other _ _ _ h
theorem putBase_base (pt j : Nat) (v : Bool) (s : State) :
    (putBase pt v s).base j = if j = pt then v else s.base j :=
  Tab.get_set _ _ _ _ _

@[simp] theorem putOverride_override_same (pt : Nat) (v : Override) (s : State) : (putOverride pt v s).override pt = v :=
  Tab.get_set_same _ _ _ _
theorem putOverride_override_other {pt j : Nat} (v : Override) (s : State) (h : j ≠ pt) :
    (putOverride pt v s).override j = s.override j :=
  Tab.get_set_other _ _ _ h
theorem putOverride_override (pt j : Nat) (v : Override) (s : State) :
    (putOverride pt v s).override j = if j = pt then v else s.override j :=
  Tab.get_set _ _ _ _ _

@[simp] theorem putLine_lineDriven_same (p : Nat) (v : Bool) (s : State) : (putLine p v s).lineDriven p = v :=
  Tab.get_set_same _ _ _ _
theorem putLine_lineDriven_other {p j : Nat} (v : Bool) (s : State) (h : j ≠ p) :
    (putLine p v s).lineDriven j = s.lineDriven j :=
  Tab.get_set_other _ _ _ h
theorem putLine_lineDriven (p j : Nat) (v : Bool) (s : State) :
    (putLine p v s).lineDriven j = if j = p then v else s.lineDriven j :=
  Tab.get_set _ _ _ _ _

/-! ### Records that an update does not reach -/

@[simp] theorem putZone_slot_kept (z : Nat) (v : ZoneCond) (j : Nat) (s : State) : (putZone z v s).slot j = s.slot j := rfl
@[simp] theorem putZone_door_kept (z : Nat) (v : ZoneCond) (j : Nat) (s : State) : (putZone z v s).door j = s.door j := rfl
@[simp] theorem putZone_group_kept (z : Nat) (v : ZoneCond) (j : Nat) (s : State) : (putZone z v s).group j = s.group j := rfl
@[simp] theorem putZone_node_kept (z : Nat) (v : ZoneCond) (j : Nat) (s : State) : (putZone z v s).node j = s.node j := rfl
@[simp] theorem putZone_grant_kept (z : Nat) (v : ZoneCond) (j : Nat) (s : State) : (putZone z v s).grant j = s.grant j := rfl
@[simp] theorem putZone_place_kept (z : Nat) (v : ZoneCond) (j : Nat) (s : State) : (putZone z v s).place j = s.place j := rfl
@[simp] theorem putZone_base_kept (z : Nat) (v : ZoneCond) (j : Nat) (s : State) : (putZone z v s).base j = s.base j := rfl
@[simp] theorem putZone_override_kept (z : Nat) (v : ZoneCond) (j : Nat) (s : State) : (putZone z v s).override j = s.override j := rfl
@[simp] theorem putZone_lineDriven_kept (z : Nat) (v : ZoneCond) (j : Nat) (s : State) : (putZone z v s).lineDriven j = s.lineDriven j := rfl
@[simp] theorem putSlot_zone_kept (i : Nat) (v : Slot) (j : Nat) (s : State) : (putSlot i v s).zone j = s.zone j := rfl
@[simp] theorem putSlot_door_kept (i : Nat) (v : Slot) (j : Nat) (s : State) : (putSlot i v s).door j = s.door j := rfl
@[simp] theorem putSlot_group_kept (i : Nat) (v : Slot) (j : Nat) (s : State) : (putSlot i v s).group j = s.group j := rfl
@[simp] theorem putSlot_node_kept (i : Nat) (v : Slot) (j : Nat) (s : State) : (putSlot i v s).node j = s.node j := rfl
@[simp] theorem putSlot_grant_kept (i : Nat) (v : Slot) (j : Nat) (s : State) : (putSlot i v s).grant j = s.grant j := rfl
@[simp] theorem putSlot_place_kept (i : Nat) (v : Slot) (j : Nat) (s : State) : (putSlot i v s).place j = s.place j := rfl
@[simp] theorem putSlot_base_kept (i : Nat) (v : Slot) (j : Nat) (s : State) : (putSlot i v s).base j = s.base j := rfl
@[simp] theorem putSlot_override_kept (i : Nat) (v : Slot) (j : Nat) (s : State) : (putSlot i v s).override j = s.override j := rfl
@[simp] theorem putSlot_lineDriven_kept (i : Nat) (v : Slot) (j : Nat) (s : State) : (putSlot i v s).lineDriven j = s.lineDriven j := rfl
@[simp] theorem putDoor_zone_kept (d : Nat) (v : DoorVol) (j : Nat) (s : State) : (putDoor d v s).zone j = s.zone j := rfl
@[simp] theorem putDoor_slot_kept (d : Nat) (v : DoorVol) (j : Nat) (s : State) : (putDoor d v s).slot j = s.slot j := rfl
@[simp] theorem putDoor_group_kept (d : Nat) (v : DoorVol) (j : Nat) (s : State) : (putDoor d v s).group j = s.group j := rfl
@[simp] theorem putDoor_node_kept (d : Nat) (v : DoorVol) (j : Nat) (s : State) : (putDoor d v s).node j = s.node j := rfl
@[simp] theorem putDoor_grant_kept (d : Nat) (v : DoorVol) (j : Nat) (s : State) : (putDoor d v s).grant j = s.grant j := rfl
@[simp] theorem putDoor_place_kept (d : Nat) (v : DoorVol) (j : Nat) (s : State) : (putDoor d v s).place j = s.place j := rfl
@[simp] theorem putDoor_base_kept (d : Nat) (v : DoorVol) (j : Nat) (s : State) : (putDoor d v s).base j = s.base j := rfl
@[simp] theorem putDoor_override_kept (d : Nat) (v : DoorVol) (j : Nat) (s : State) : (putDoor d v s).override j = s.override j := rfl
@[simp] theorem putDoor_lineDriven_kept (d : Nat) (v : DoorVol) (j : Nat) (s : State) : (putDoor d v s).lineDriven j = s.lineDriven j := rfl
@[simp] theorem putGroup_zone_kept (g : Nat) (v : GroupVol) (j : Nat) (s : State) : (putGroup g v s).zone j = s.zone j := rfl
@[simp] theorem putGroup_slot_kept (g : Nat) (v : GroupVol) (j : Nat) (s : State) : (putGroup g v s).slot j = s.slot j := rfl
@[simp] theorem putGroup_door_kept (g : Nat) (v : GroupVol) (j : Nat) (s : State) : (putGroup g v s).door j = s.door j := rfl
@[simp] theorem putGroup_node_kept (g : Nat) (v : GroupVol) (j : Nat) (s : State) : (putGroup g v s).node j = s.node j := rfl
@[simp] theorem putGroup_grant_kept (g : Nat) (v : GroupVol) (j : Nat) (s : State) : (putGroup g v s).grant j = s.grant j := rfl
@[simp] theorem putGroup_place_kept (g : Nat) (v : GroupVol) (j : Nat) (s : State) : (putGroup g v s).place j = s.place j := rfl
@[simp] theorem putGroup_base_kept (g : Nat) (v : GroupVol) (j : Nat) (s : State) : (putGroup g v s).base j = s.base j := rfl
@[simp] theorem putGroup_override_kept (g : Nat) (v : GroupVol) (j : Nat) (s : State) : (putGroup g v s).override j = s.override j := rfl
@[simp] theorem putLine_zone_kept (p : Nat) (v : Bool) (j : Nat) (s : State) : (putLine p v s).zone j = s.zone j := rfl
@[simp] theorem putLine_slot_kept (p : Nat) (v : Bool) (j : Nat) (s : State) : (putLine p v s).slot j = s.slot j := rfl
@[simp] theorem putLine_door_kept (p : Nat) (v : Bool) (j : Nat) (s : State) : (putLine p v s).door j = s.door j := rfl
@[simp] theorem putLine_node_kept (p : Nat) (v : Bool) (j : Nat) (s : State) : (putLine p v s).node j = s.node j := rfl
@[simp] theorem putLine_grant_kept (p : Nat) (v : Bool) (j : Nat) (s : State) : (putLine p v s).grant j = s.grant j := rfl
@[simp] theorem putLine_place_kept (p : Nat) (v : Bool) (j : Nat) (s : State) : (putLine p v s).place j = s.place j := rfl
@[simp] theorem putLine_base_kept (p : Nat) (v : Bool) (j : Nat) (s : State) : (putLine p v s).base j = s.base j := rfl
@[simp] theorem putLine_override_kept (p : Nat) (v : Bool) (j : Nat) (s : State) : (putLine p v s).override j = s.override j := rfl
@[simp] theorem putNode_zone_kept (n : Nat) (v : NodeVol) (j : Nat) (s : State) : (putNode n v s).zone j = s.zone j := rfl
@[simp] theorem putNode_slot_kept (n : Nat) (v : NodeVol) (j : Nat) (s : State) : (putNode n v s).slot j = s.slot j := rfl
@[simp] theorem putNode_door_kept (n : Nat) (v : NodeVol) (j : Nat) (s : State) : (putNode n v s).door j = s.door j := rfl
@[simp] theorem putNode_group_kept (n : Nat) (v : NodeVol) (j : Nat) (s : State) : (putNode n v s).group j = s.group j := rfl
@[simp] theorem putNode_grant_kept (n : Nat) (v : NodeVol) (j : Nat) (s : State) : (putNode n v s).grant j = s.grant j := rfl
@[simp] theorem putNode_place_kept (n : Nat) (v : NodeVol) (j : Nat) (s : State) : (putNode n v s).place j = s.place j := rfl
@[simp] theorem putNode_base_kept (n : Nat) (v : NodeVol) (j : Nat) (s : State) : (putNode n v s).base j = s.base j := rfl
@[simp] theorem putNode_override_kept (n : Nat) (v : NodeVol) (j : Nat) (s : State) : (putNode n v s).override j = s.override j := rfl
@[simp] theorem putNode_lineDriven_kept (n : Nat) (v : NodeVol) (j : Nat) (s : State) : (putNode n v s).lineDriven j = s.lineDriven j := rfl
@[simp] theorem onLoop_zone_kept (f : Loop → Loop) (j : Nat) (s : State) : (onLoop f s).zone j = s.zone j := rfl
@[simp] theorem onLoop_slot_kept (f : Loop → Loop) (j : Nat) (s : State) : (onLoop f s).slot j = s.slot j := rfl
@[simp] theorem onLoop_door_kept (f : Loop → Loop) (j : Nat) (s : State) : (onLoop f s).door j = s.door j := rfl
@[simp] theorem onLoop_group_kept (f : Loop → Loop) (j : Nat) (s : State) : (onLoop f s).group j = s.group j := rfl
@[simp] theorem onLoop_grant_kept (f : Loop → Loop) (j : Nat) (s : State) : (onLoop f s).grant j = s.grant j := rfl
@[simp] theorem onLoop_place_kept (f : Loop → Loop) (j : Nat) (s : State) : (onLoop f s).place j = s.place j := rfl
@[simp] theorem onLoop_base_kept (f : Loop → Loop) (j : Nat) (s : State) : (onLoop f s).base j = s.base j := rfl
@[simp] theorem onLoop_override_kept (f : Loop → Loop) (j : Nat) (s : State) : (onLoop f s).override j = s.override j := rfl
@[simp] theorem onLoop_lineDriven_kept (f : Loop → Loop) (j : Nat) (s : State) : (onLoop f s).lineDriven j = s.lineDriven j := rfl
@[simp] theorem putGrant_zone_kept (g : Nat) (v : Grant) (j : Nat) (s : State) : (putGrant g v s).zone j = s.zone j := rfl
@[simp] theorem putGrant_slot_kept (g : Nat) (v : Grant) (j : Nat) (s : State) : (putGrant g v s).slot j = s.slot j := rfl
@[simp] theorem putGrant_door_kept (g : Nat) (v : Grant) (j : Nat) (s : State) : (putGrant g v s).door j = s.door j := rfl
@[simp] theorem putGrant_group_kept (g : Nat) (v : Grant) (j : Nat) (s : State) : (putGrant g v s).group j = s.group j := rfl
@[simp] theorem putGrant_node_kept (g : Nat) (v : Grant) (j : Nat) (s : State) : (putGrant g v s).node j = s.node j := rfl
@[simp] theorem putGrant_base_kept (g : Nat) (v : Grant) (j : Nat) (s : State) : (putGrant g v s).base j = s.base j := rfl
@[simp] theorem putGrant_override_kept (g : Nat) (v : Grant) (j : Nat) (s : State) : (putGrant g v s).override j = s.override j := rfl
@[simp] theorem putGrant_lineDriven_kept (g : Nat) (v : Grant) (j : Nat) (s : State) : (putGrant g v s).lineDriven j = s.lineDriven j := rfl
@[simp] theorem putPlace_zone_kept (i : Nat) (v : Option Place) (j : Nat) (s : State) : (putPlace i v s).zone j = s.zone j := rfl
@[simp] theorem putPlace_slot_kept (i : Nat) (v : Option Place) (j : Nat) (s : State) : (putPlace i v s).slot j = s.slot j := rfl
@[simp] theorem putPlace_door_kept (i : Nat) (v : Option Place) (j : Nat) (s : State) : (putPlace i v s).door j = s.door j := rfl
@[simp] theorem putPlace_group_kept (i : Nat) (v : Option Place) (j : Nat) (s : State) : (putPlace i v s).group j = s.group j := rfl
@[simp] theorem putPlace_node_kept (i : Nat) (v : Option Place) (j : Nat) (s : State) : (putPlace i v s).node j = s.node j := rfl
@[simp] theorem putPlace_base_kept (i : Nat) (v : Option Place) (j : Nat) (s : State) : (putPlace i v s).base j = s.base j := rfl
@[simp] theorem putPlace_override_kept (i : Nat) (v : Option Place) (j : Nat) (s : State) : (putPlace i v s).override j = s.override j := rfl
@[simp] theorem putPlace_lineDriven_kept (i : Nat) (v : Option Place) (j : Nat) (s : State) : (putPlace i v s).lineDriven j = s.lineDriven j := rfl
@[simp] theorem putBase_zone_kept (pt : Nat) (v : Bool) (j : Nat) (s : State) : (putBase pt v s).zone j = s.zone j := rfl
@[simp] theorem putBase_slot_kept (pt : Nat) (v : Bool) (j : Nat) (s : State) : (putBase pt v s).slot j = s.slot j := rfl
@[simp] theorem putBase_door_kept (pt : Nat) (v : Bool) (j : Nat) (s : State) : (putBase pt v s).door j = s.door j := rfl
@[simp] theorem putBase_group_kept (pt : Nat) (v : Bool) (j : Nat) (s : State) : (putBase pt v s).group j = s.group j := rfl
@[simp] theorem putBase_node_kept (pt : Nat) (v : Bool) (j : Nat) (s : State) : (putBase pt v s).node j = s.node j := rfl
@[simp] theorem putBase_grant_kept (pt : Nat) (v : Bool) (j : Nat) (s : State) : (putBase pt v s).grant j = s.grant j := rfl
@[simp] theorem putBase_place_kept (pt : Nat) (v : Bool) (j : Nat) (s : State) : (putBase pt v s).place j = s.place j := rfl
@[simp] theorem putBase_lineDriven_kept (pt : Nat) (v : Bool) (j : Nat) (s : State) : (putBase pt v s).lineDriven j = s.lineDriven j := rfl
@[simp] theorem putOverride_zone_kept (pt : Nat) (v : Override) (j : Nat) (s : State) : (putOverride pt v s).zone j = s.zone j := rfl
@[simp] theorem putOverride_slot_kept (pt : Nat) (v : Override) (j : Nat) (s : State) : (putOverride pt v s).slot j = s.slot j := rfl
@[simp] theorem putOverride_door_kept (pt : Nat) (v : Override) (j : Nat) (s : State) : (putOverride pt v s).door j = s.door j := rfl
@[simp] theorem putOverride_group_kept (pt : Nat) (v : Override) (j : Nat) (s : State) : (putOverride pt v s).group j = s.group j := rfl
@[simp] theorem putOverride_node_kept (pt : Nat) (v : Override) (j : Nat) (s : State) : (putOverride pt v s).node j = s.node j := rfl
@[simp] theorem putOverride_grant_kept (pt : Nat) (v : Override) (j : Nat) (s : State) : (putOverride pt v s).grant j = s.grant j := rfl
@[simp] theorem putOverride_place_kept (pt : Nat) (v : Override) (j : Nat) (s : State) : (putOverride pt v s).place j = s.place j := rfl
@[simp] theorem putOverride_lineDriven_kept (pt : Nat) (v : Override) (j : Nat) (s : State) : (putOverride pt v s).lineDriven j = s.lineDriven j := rfl
@[simp] theorem putRecords_zone_kept (rs : List AlarmRec) (j : Nat) (s : State) : (putRecords rs s).zone j = s.zone j := rfl
@[simp] theorem putRecords_slot_kept (rs : List AlarmRec) (j : Nat) (s : State) : (putRecords rs s).slot j = s.slot j := rfl
@[simp] theorem putRecords_door_kept (rs : List AlarmRec) (j : Nat) (s : State) : (putRecords rs s).door j = s.door j := rfl
@[simp] theorem putRecords_group_kept (rs : List AlarmRec) (j : Nat) (s : State) : (putRecords rs s).group j = s.group j := rfl
@[simp] theorem putRecords_node_kept (rs : List AlarmRec) (j : Nat) (s : State) : (putRecords rs s).node j = s.node j := rfl
@[simp] theorem putRecords_grant_kept (rs : List AlarmRec) (j : Nat) (s : State) : (putRecords rs s).grant j = s.grant j := rfl
@[simp] theorem putRecords_place_kept (rs : List AlarmRec) (j : Nat) (s : State) : (putRecords rs s).place j = s.place j := rfl
@[simp] theorem putRecords_base_kept (rs : List AlarmRec) (j : Nat) (s : State) : (putRecords rs s).base j = s.base j := rfl
@[simp] theorem putRecords_override_kept (rs : List AlarmRec) (j : Nat) (s : State) : (putRecords rs s).override j = s.override j := rfl
@[simp] theorem putRecords_lineDriven_kept (rs : List AlarmRec) (j : Nat) (s : State) : (putRecords rs s).lineDriven j = s.lineDriven j := rfl
@[simp] theorem putTest_zone_kept (t : LoopTest) (j : Nat) (s : State) : (putTest t s).zone j = s.zone j := rfl
@[simp] theorem putTest_slot_kept (t : LoopTest) (j : Nat) (s : State) : (putTest t s).slot j = s.slot j := rfl
@[simp] theorem putTest_door_kept (t : LoopTest) (j : Nat) (s : State) : (putTest t s).door j = s.door j := rfl
@[simp] theorem putTest_group_kept (t : LoopTest) (j : Nat) (s : State) : (putTest t s).group j = s.group j := rfl
@[simp] theorem putTest_node_kept (t : LoopTest) (j : Nat) (s : State) : (putTest t s).node j = s.node j := rfl
@[simp] theorem putTest_grant_kept (t : LoopTest) (j : Nat) (s : State) : (putTest t s).grant j = s.grant j := rfl
@[simp] theorem putTest_place_kept (t : LoopTest) (j : Nat) (s : State) : (putTest t s).place j = s.place j := rfl
@[simp] theorem putTest_base_kept (t : LoopTest) (j : Nat) (s : State) : (putTest t s).base j = s.base j := rfl
@[simp] theorem putTest_override_kept (t : LoopTest) (j : Nat) (s : State) : (putTest t s).override j = s.override j := rfl
@[simp] theorem putTest_lineDriven_kept (t : LoopTest) (j : Nat) (s : State) : (putTest t s).lineDriven j = s.lineDriven j := rfl
@[simp] theorem onStore_zone_kept (f : Store → Store) (j : Nat) (s : State) : (onStore f s).zone j = s.zone j := rfl
@[simp] theorem onStore_slot_kept (f : Store → Store) (j : Nat) (s : State) : (onStore f s).slot j = s.slot j := rfl
@[simp] theorem onStore_door_kept (f : Store → Store) (j : Nat) (s : State) : (onStore f s).door j = s.door j := rfl
@[simp] theorem onStore_group_kept (f : Store → Store) (j : Nat) (s : State) : (onStore f s).group j = s.group j := rfl
@[simp] theorem onStore_node_kept (f : Store → Store) (j : Nat) (s : State) : (onStore f s).node j = s.node j := rfl
@[simp] theorem onStore_grant_kept (f : Store → Store) (j : Nat) (s : State) : (onStore f s).grant j = s.grant j := rfl
@[simp] theorem onStore_place_kept (f : Store → Store) (j : Nat) (s : State) : (onStore f s).place j = s.place j := rfl
@[simp] theorem onStore_base_kept (f : Store → Store) (j : Nat) (s : State) : (onStore f s).base j = s.base j := rfl
@[simp] theorem onStore_override_kept (f : Store → Store) (j : Nat) (s : State) : (onStore f s).override j = s.override j := rfl
@[simp] theorem onStore_lineDriven_kept (f : Store → Store) (j : Nat) (s : State) : (onStore f s).lineDriven j = s.lineDriven j := rfl
@[simp] theorem onConfig_zone_kept (f : Records → Records) (j : Nat) (s : State) : (onConfig f s).zone j = s.zone j := rfl
@[simp] theorem onConfig_slot_kept (f : Records → Records) (j : Nat) (s : State) : (onConfig f s).slot j = s.slot j := rfl
@[simp] theorem onConfig_door_kept (f : Records → Records) (j : Nat) (s : State) : (onConfig f s).door j = s.door j := rfl
@[simp] theorem onConfig_group_kept (f : Records → Records) (j : Nat) (s : State) : (onConfig f s).group j = s.group j := rfl
@[simp] theorem onConfig_node_kept (f : Records → Records) (j : Nat) (s : State) : (onConfig f s).node j = s.node j := rfl
@[simp] theorem onConfig_grant_kept (f : Records → Records) (j : Nat) (s : State) : (onConfig f s).grant j = s.grant j := rfl
@[simp] theorem onConfig_place_kept (f : Records → Records) (j : Nat) (s : State) : (onConfig f s).place j = s.place j := rfl
@[simp] theorem onConfig_base_kept (f : Records → Records) (j : Nat) (s : State) : (onConfig f s).base j = s.base j := rfl
@[simp] theorem onConfig_override_kept (f : Records → Records) (j : Nat) (s : State) : (onConfig f s).override j = s.override j := rfl
@[simp] theorem onConfig_lineDriven_kept (f : Records → Records) (j : Nat) (s : State) : (onConfig f s).lineDriven j = s.lineDriven j := rfl
@[simp] theorem onPort_zone_kept (p : Port) (f : PortState → PortState) (j : Nat) (s : State) : (onPort p f s).zone j = s.zone j := rfl
@[simp] theorem onPort_slot_kept (p : Port) (f : PortState → PortState) (j : Nat) (s : State) : (onPort p f s).slot j = s.slot j := rfl
@[simp] theorem onPort_door_kept (p : Port) (f : PortState → PortState) (j : Nat) (s : State) : (onPort p f s).door j = s.door j := rfl
@[simp] theorem onPort_group_kept (p : Port) (f : PortState → PortState) (j : Nat) (s : State) : (onPort p f s).group j = s.group j := rfl
@[simp] theorem onPort_node_kept (p : Port) (f : PortState → PortState) (j : Nat) (s : State) : (onPort p f s).node j = s.node j := rfl
@[simp] theorem onPort_grant_kept (p : Port) (f : PortState → PortState) (j : Nat) (s : State) : (onPort p f s).grant j = s.grant j := rfl
@[simp] theorem onPort_place_kept (p : Port) (f : PortState → PortState) (j : Nat) (s : State) : (onPort p f s).place j = s.place j := rfl
@[simp] theorem onPort_base_kept (p : Port) (f : PortState → PortState) (j : Nat) (s : State) : (onPort p f s).base j = s.base j := rfl
@[simp] theorem onPort_override_kept (p : Port) (f : PortState → PortState) (j : Nat) (s : State) : (onPort p f s).override j = s.override j := rfl
@[simp] theorem onPort_lineDriven_kept (p : Port) (f : PortState → PortState) (j : Nat) (s : State) : (onPort p f s).lineDriven j = s.lineDriven j := rfl
@[simp] theorem settlePorts_zone_kept (j : Nat) (s : State) : (settlePorts s).zone j = s.zone j := rfl
@[simp] theorem settlePorts_slot_kept (j : Nat) (s : State) : (settlePorts s).slot j = s.slot j := rfl
@[simp] theorem settlePorts_door_kept (j : Nat) (s : State) : (settlePorts s).door j = s.door j := rfl
@[simp] theorem settlePorts_group_kept (j : Nat) (s : State) : (settlePorts s).group j = s.group j := rfl
@[simp] theorem settlePorts_node_kept (j : Nat) (s : State) : (settlePorts s).node j = s.node j := rfl
@[simp] theorem settlePorts_grant_kept (j : Nat) (s : State) : (settlePorts s).grant j = s.grant j := rfl
@[simp] theorem settlePorts_place_kept (j : Nat) (s : State) : (settlePorts s).place j = s.place j := rfl
@[simp] theorem settlePorts_base_kept (j : Nat) (s : State) : (settlePorts s).base j = s.base j := rfl
@[simp] theorem settlePorts_override_kept (j : Nat) (s : State) : (settlePorts s).override j = s.override j := rfl
@[simp] theorem settlePorts_lineDriven_kept (j : Nat) (s : State) : (settlePorts s).lineDriven j = s.lineDriven j := rfl
@[simp] theorem putGroup_lineDriven_kept (g : Nat) (v : GroupVol) (j : Nat) (s : State) : (putGroup g v s).lineDriven j = s.lineDriven j := rfl
@[simp] theorem putLine_group_kept (p : Nat) (v : Bool) (j : Nat) (s : State) : (putLine p v s).group j = s.group j := rfl
@[simp] theorem putGrant_place_kept (g : Nat) (v : Grant) (j : Nat) (s : State) : (putGrant g v s).place j = s.place j := rfl
@[simp] theorem putPlace_grant_kept (i : Nat) (v : Option Place) (j : Nat) (s : State) : (putPlace i v s).grant j = s.grant j := rfl
@[simp] theorem putBase_override_kept (pt : Nat) (v : Bool) (j : Nat) (s : State) : (putBase pt v s).override j = s.override j := rfl
@[simp] theorem putOverride_base_kept (pt : Nat) (v : Override) (j : Nat) (s : State) : (putOverride pt v s).base j = s.base j := rfl
@[simp] theorem putZone_port (z : Nat) (v : ZoneCond) (p : Port) (s : State) : (putZone z v s).port p = s.port p := rfl
@[simp] theorem putSlot_port (i : Nat) (v : Slot) (p : Port) (s : State) : (putSlot i v s).port p = s.port p := rfl
@[simp] theorem putDoor_port (d : Nat) (v : DoorVol) (p : Port) (s : State) : (putDoor d v s).port p = s.port p := rfl
@[simp] theorem putGroup_port (g : Nat) (v : GroupVol) (p : Port) (s : State) : (putGroup g v s).port p = s.port p := rfl
@[simp] theorem putLine_port (pair : Nat) (v : Bool) (p : Port) (s : State) : (putLine pair v s).port p = s.port p := rfl
@[simp] theorem putNode_port (n : Nat) (v : NodeVol) (p : Port) (s : State) : (putNode n v s).port p = s.port p := rfl
@[simp] theorem onLoop_port (f : Loop → Loop) (p : Port) (s : State) : (onLoop f s).port p = s.port p := rfl
@[simp] theorem putGrant_port (g : Nat) (v : Grant) (p : Port) (s : State) : (putGrant g v s).port p = s.port p := rfl
@[simp] theorem putPlace_port (i : Nat) (v : Option Place) (p : Port) (s : State) : (putPlace i v s).port p = s.port p := rfl
@[simp] theorem putBase_port (pt : Nat) (v : Bool) (p : Port) (s : State) : (putBase pt v s).port p = s.port p := rfl
@[simp] theorem putOverride_port (pt : Nat) (v : Override) (p : Port) (s : State) : (putOverride pt v s).port p = s.port p := rfl
@[simp] theorem putRecords_port (rs : List AlarmRec) (p : Port) (s : State) : (putRecords rs s).port p = s.port p := rfl
@[simp] theorem putTest_port (t : LoopTest) (p : Port) (s : State) : (putTest t s).port p = s.port p := rfl
@[simp] theorem onStore_port (f : Store → Store) (p : Port) (s : State) : (onStore f s).port p = s.port p := rfl
@[simp] theorem onConfig_port (f : Records → Records) (p : Port) (s : State) : (onConfig f s).port p = s.port p := rfl

/-! ### The ports -/

@[simp] theorem onPort_port_same (p : Port) (f : PortState → PortState) (s : State) :
    (onPort p f s).port p = f (s.port p) := by
  cases p <;> rfl

theorem onPort_port_other {p q : Port} (f : PortState → PortState) (s : State) (h : q ≠ p) :
    (onPort p f s).port q = s.port q := by
  cases p <;> cases q <;> first | rfl | exact absurd rfl h

theorem onPort_port (p q : Port) (f : PortState → PortState) (s : State) :
    (onPort p f s).port q = if q = p then f (s.port p) else s.port q := by
  cases p <;> cases q <;> rfl

@[simp] theorem onPort_linkPresent (p : Port) (f : PortState → PortState) (s : State) :
    (onPort p f s).ports.linkPresent = s.ports.linkPresent := by
  cases p <;> rfl

@[simp] theorem onPort_silence (p : Port) (f : PortState → PortState) (s : State) :
    (onPort p f s).ports.silence = s.ports.silence := by
  cases p <;> rfl

@[simp] theorem onPort_rateWrites (p : Port) (f : PortState → PortState) (s : State) :
    (onPort p f s).ports.rateWrites = s.ports.rateWrites := by
  cases p <;> rfl

@[simp] theorem settlePorts_linkPresent (s : State) : (settlePorts s).ports.linkPresent = s.ports.linkPresent := rfl
@[simp] theorem settlePorts_silence (s : State) : (settlePorts s).ports.silence = s.ports.silence := rfl

end Sys2Proof.Machine
end

