-- ==== Sys2Proof/Laws/Frames.lean ====
section
/-! SUPPORT. What each shared operation can change, said once: an observer of the state that is blind to the blocks of
the operation sees the same before and after it. To use a lemma, take the observer wanted (a block, a record of a block,
several) and prove that it is blind to each block of the lemma, which is `rfl` block by block. -/

namespace Sys2Proof.Machine

/-- The blocks of the state that an operation may change. -/
inductive Block where
  | ports | release | loop | loopTest | points | alarms | zones | afterHours | roster | store | doors | nv | clock
  | config | configValid
  deriving DecidableEq, Repr

/-- An observer is blind to a block when no change of the block reaches it. -/
def Blind {α : Type} (π : State → α) : Block → Prop
  | .ports => ∀ s x, π { s with ports := x } = π s
  | .release => ∀ s x, π { s with release := x } = π s
  | .loop => ∀ s x, π { s with loop := x } = π s
  | .loopTest => ∀ s x, π { s with loopTest := x } = π s
  | .points => ∀ s x, π { s with points := x } = π s
  | .alarms => ∀ s x, π { s with alarms := x } = π s
  | .zones => ∀ s x, π { s with zones := x } = π s
  | .afterHours => ∀ s x, π { s with afterHours := x } = π s
  | .roster => ∀ s x, π { s with roster := x } = π s
  | .store => ∀ s x, π { s with store := x } = π s
  | .doors => ∀ s x, π { s with doors := x } = π s
  | .nv => ∀ s x, π { s with nv := x } = π s
  | .clock => ∀ s x, π { s with clock := x } = π s
  | .config => ∀ s x, π { s with config := x } = π s
  | .configValid => ∀ s x, π { s with configValid := x } = π s

/-- Blind to each of several blocks. -/
def Unseen {α : Type} (π : State → α) (bs : List Block) : Prop := ∀ b ∈ bs, Blind π b

/-- The blocks that the Release Controller's inner passages reach. -/
def bRelease : List Block := [.ports, .release, .loop, .loopTest, .points]
/-- With the Alarm Queue and the zones' flags. -/
def bAlarms : List Block := [.ports, .release, .loop, .loopTest, .points, .alarms, .zones]
/-- With the After-Hours Unit and the Roster. -/
def bRoster : List Block := [.ports, .release, .loop, .loopTest, .points, .alarms, .zones, .afterHours, .roster]
/-- With the Credential Store and the doors. -/
def bDoors : List Block :=
  [.ports, .release, .loop, .loopTest, .points, .alarms, .zones, .afterHours, .roster, .store, .doors]
/-- With the nonvolatile memory: every block that a field event reaches. -/
def bField : List Block :=
  [.ports, .release, .loop, .loopTest, .points, .alarms, .zones, .afterHours, .roster, .store, .doors, .nv]

variable {α : Type} {π : State → α}

theorem Unseen.mono {bs cs : List Block} (h : Unseen π bs) (sub : ∀ b ∈ cs, b ∈ bs) : Unseen π cs :=
  fun b hb => h b (sub b hb)

/-! ### The primitive updates -/

theorem putZone_unseen (h : Blind π .zones) (z v) (s : State) : π (putZone z v s) = π s := h s _
theorem putSlot_unseen (h : Blind π .roster) (i v) (s : State) : π (putSlot i v s) = π s := h s _
theorem putDoor_unseen (h : Blind π .doors) (d v) (s : State) : π (putDoor d v s) = π s := h s _
theorem putGroup_unseen (h : Blind π .release) (g v) (s : State) : π (putGroup g v s) = π s := h s _
theorem putLine_unseen (h : Blind π .release) (p v) (s : State) : π (putLine p v s) = π s := h s _
theorem putNode_unseen (h : Blind π .loop) (n v) (s : State) : π (putNode n v s) = π s := h s _
theorem onLoop_unseen (h : Blind π .loop) (f) (s : State) : π (onLoop f s) = π s := h s _
theorem putGrant_unseen (h : Blind π .afterHours) (g v) (s : State) : π (putGrant g v s) = π s := h s _
theorem putPlace_unseen (h : Blind π .afterHours) (i v) (s : State) : π (putPlace i v s) = π s := h s _
theorem putBase_unseen (h : Blind π .points) (pt v) (s : State) : π (putBase pt v s) = π s := h s _
theorem putOverride_unseen (h : Blind π .points) (pt v) (s : State) : π (putOverride pt v s) = π s := h s _
theorem putRecords_unseen (h : Blind π .alarms) (rs) (s : State) : π (putRecords rs s) = π s := h s _
theorem putTest_unseen (h : Blind π .loopTest) (t) (s : State) : π (putTest t s) = π s := h s _
theorem onStore_unseen (h : Blind π .store) (f) (s : State) : π (onStore f s) = π s := h s _
theorem onConfig_unseen (h : Blind π .config) (f) (s : State) : π (onConfig f s) = π s := h s _
theorem onPort_unseen (h : Blind π .ports) (p f) (s : State) : π (onPort p f s) = π s := h s _
theorem settlePorts_unseen (h : Blind π .ports) (s : State) : π (settlePorts s) = π s := h s _

/-! ### Repetition and condition -/

theorem forEach_unseen {β : Type} {f : β → State → State} (hf : ∀ x s, π (f x s) = π s) (xs : List β) (s : State) :
    π (forEach xs f s) = π s := by
  induction xs generalizing s with
  | nil => rfl
  | cons x xs ih => exact (ih (f x s)).trans (hf x s)

theorem onlyIf_unseen {f : State → State} (hf : ∀ s, π (f s) = π s) (c : Bool) (s : State) :
    π (onlyIf c f s) = π s := by
  cases c
  · rfl
  · exact hf s

theorem ite_unseen {c : Prop} [Decidable c] {a b : State} {s : State} (ha : π a = π s) (hb : π b = π s) :
    π (if c then a else b) = π s := by
  split <;> assumption

/-! ### Notices, requests and replies (10) -/

theorem offer_unseen (h : Blind π .ports) (ps t vs) (s : State) : π (offer ps t vs s) = π s :=
  forEach_unseen (fun _ s => h s _) ps s

theorem frameArrived_unseen (h : Blind π .ports) (p) (s : State) : π (frameArrived p s) = π s := by
  exact ite_unseen ((onlyIf_unseen (fun s => offer_unseen h _ _ _ s) _ _).trans (h s _)) rfl

theorem onFrame_unseen (h : Blind π .ports) {f : State → State} (hf : ∀ s, π (f s) = π s) (p) (s : State) :
    π (onFrame p f s) = π s :=
  ite_unseen ((hf _).trans (frameArrived_unseen h p s)) rfl

theorem answer_unseen (h : Blind π .ports) (p a b c d) (s : State) : π (answer p a b c d s) = π s := h s _
theorem refuse_unseen (h : Blind π .ports) (p a b c) (s : State) : π (refuse p a b c s) = π s := h s _
theorem done_unseen (h : Blind π .ports) (hd a b c) (s : State) : π (done hd a b c s) = π s := h s _
theorem beginWork_unseen (h : Blind π .ports) (hd a b) (s : State) : π (beginWork hd a b s) = π s := h s _

theorem endWork_unseen (h : Blind π .ports) (p a b) (s : State) : π (endWork p a b s) = π s := by
  unfold endWork
  split
  · rfl
  · exact ite_unseen (onPort_unseen h _ _ _) ((answer_unseen h _ _ _ _ _ _).trans (onPort_unseen h _ _ _))

theorem takeRequest_unseen (h : Blind π .ports) {run : State → State} (hr : ∀ s, π (run s) = π s) (hd code)
    (s : State) : π (takeRequest hd code run s) = π s := by
  unfold takeRequest
  exact ite_unseen (onPort_unseen h _ _ _)
    (ite_unseen (refuse_unseen h _ _ _ _ _) (ite_unseen (refuse_unseen h _ _ _ _ _) (hr s)))

/-- What a served command does to an observer. -/
theorem served_unseen (h : Blind π .ports) {f : State → State} (hf : ∀ s, π (f s) = π s) {s t : State}
    (e : served f s = .next t) : π t = π s := by
  unfold served at e
  cases e
  exact ite_unseen ((settlePorts_unseen h _).trans (hf s)) rfl

/-- What a request does to an observer. -/
theorem request_unseen (h : Blind π .ports) {run : State → State} (hr : ∀ s, π (run s) = π s) {hd : Head} {code : Nat}
    {s t : State} (e : request hd code run s = .next t) : π t = π s :=
  served_unseen h (fun s => onFrame_unseen h (fun s => takeRequest_unseen h hr hd code s) hd.port s) e

/-! ### Urgent entries, outputs and the loop test's end (08, 09) -/

theorem putUrgent_unseen (h : Blind π .loop) (n) (s : State) : π (putUrgent n s) = π s := by
  unfold putUrgent
  exact ite_unseen rfl (h s _)

theorem noteImages_unseen (h : Blind π .loop) (old ns) (s : State) : π (noteImages old ns s) = π s :=
  forEach_unseen (fun n s => ite_unseen rfl (putUrgent_unseen h n s)) ns s

theorem carrying_unseen (h : Blind π .loop) {f : State → State} (ns) (s : State) (hf : π (f s) = π s) :
    π (carrying ns f s) = π s :=
  (noteImages_unseen h s ns (f s)).trans hf

theorem writeBase_unseen (h : Unseen π [.loop, .points]) (pt v) (s : State) : π (writeBase pt v s) = π s :=
  carrying_unseen (h .loop (by decide)) _ _ (putBase_unseen (h .points (by decide)) pt v s)

theorem endTest_unseen (h : Unseen π [.ports, .loop, .loopTest]) (c) (s : State) : π (endTest c s) = π s := by
  unfold endTest
  split
  · rfl
  · rw [offer_unseen (h .ports (by decide)), putUrgent_unseen (h .loop (by decide))]
    exact (h .loopTest (by decide) { s with loop := s.loop.unjudge } _).trans (h .loop (by decide) s _)

theorem testSeesGroup_unseen (h : Unseen π [.ports, .loop, .loopTest]) (g) (s : State) :
    π (testSeesGroup g s) = π s := by
  unfold testSeesGroup
  split
  · exact ite_unseen (endTest_unseen h _ s) rfl
  · rfl

theorem endTestOn_unseen (h : Unseen π [.ports, .loop, .loopTest]) (n c) (s : State) :
    π (endTestOn n c s) = π s :=
  ite_unseen (endTest_unseen h c s) rfl

/-! ### The Release Controller's inner passages (06) -/

theorem groupNotice_unseen (h : Blind π .ports) (g t vs) (s : State) : π (groupNotice g t vs s) = π s :=
  offer_unseen h _ _ _ s

theorem onGroup_unseen (h : Blind π .release) (g f) (s : State) : π (onGroup g f s) = π s := h s _

theorem writeWarnings_unseen (h : Unseen π [.loop, .points]) (g) (s : State) : π (writeWarnings g s) = π s :=
  forEach_unseen (fun _ s => writeBase_unseen h _ _ s) _ s

theorem nameState_unseen (h : Unseen π bRelease) (g st c) (s : State) : π (nameState g st c s) = π s :=
  (groupNotice_unseen (h .ports (by decide)) _ _ _ _).trans (onGroup_unseen (h .release (by decide)) _ _ s)

theorem moveInner_unseen (h : Unseen π bRelease) (g st c) (s : State) : π (moveInner g st c s) = π s :=
  (writeWarnings_unseen (h.mono (by decide)) _ _).trans
    ((testSeesGroup_unseen (h.mono (by decide)) _ _).trans (nameState_unseen h g st c s))

theorem recompute_unseen (h : Unseen π bRelease) (g) (s : State) : π (recompute g s) = π s := by
  unfold recompute
  simp only []
  refine ite_unseen (ite_unseen ?_ ?_) rfl
  · rw [moveInner_unseen h, onGroup_unseen (h .release (by decide)),
      onlyIf_unseen (fun s => groupNotice_unseen (h .ports (by decide)) _ _ _ s)]
    exact onGroup_unseen (h .release (by decide)) _ _ s
  · rw [onlyIf_unseen (fun s => groupNotice_unseen (h .ports (by decide)) _ _ _ s)]
    exact onGroup_unseen (h .release (by decide)) _ _ s

theorem recomputeZone_unseen (h : Unseen π bRelease) (z) (s : State) : π (recomputeZone z s) = π s := by
  unfold recomputeZone
  split
  · exact recompute_unseen h _ s
  · rfl

theorem setOccUnknown_unseen (h : Unseen π bAlarms) (z) (s : State) : π (setOccUnknown z s) = π s := by
  unfold setOccUnknown
  simp only []
  split
  · rw [recomputeZone_unseen (h.mono (by decide)), offer_unseen (h .ports (by decide))]
    exact putZone_unseen (h .zones (by decide)) _ _ s
  · rfl

theorem clearOccUnknown_unseen (h : Unseen π [.ports, .zones]) (z) (s : State) : π (clearOccUnknown z s) = π s := by
  unfold clearOccUnknown
  simp only []
  split
  · exact (offer_unseen (h .ports (by decide)) _ _ _ _).trans (putZone_unseen (h .zones (by decide)) _ _ s)
  · rfl

theorem judgeHold_unseen (h : Unseen π bRelease) (g b p) (s : State) : π (judgeHold g b p s) = π s := by
  have hn : ∀ (c : Bool) (t vs) (s : State), π (onlyIf c (groupNotice g t vs) s) = π s := fun c t vs s =>
    onlyIf_unseen (fun s => groupNotice_unseen (h .ports (by decide)) _ _ _ s) c s
  unfold judgeHold
  simp only []
  split
  · rw [hn, hn]
  · split
    · rw [onlyIf_unseen (fun s => moveInner_unseen h _ _ _ s), hn, hn]
    · split
      · rw [hn, hn]
      · rw [moveInner_unseen h, onGroup_unseen (h .release (by decide)), hn, hn]
    · rw [hn, hn]

theorem enterReleasing_unseen (h : Unseen π bRelease) (g c) (s : State) : π (enterReleasing g c s) = π s := by
  unfold enterReleasing
  simp only []
  rw [groupNotice_unseen (h .ports (by decide)), moveInner_unseen h, putLine_unseen (h .release (by decide)),
    onGroup_unseen (h .release (by decide))]

theorem sealExpire_unseen (h : Unseen π bRelease) (g) (s : State) : π (sealExpire g s) = π s := by
  unfold sealExpire
  simp only []
  exact ite_unseen ((enterReleasing_unseen h _ _ _).trans (groupNotice_unseen (h .ports (by decide)) _ _ _ s)) rfl

theorem sealCheck_unseen (h : Unseen π bRelease) (g) (s : State) : π (sealCheck g s) = π s :=
  ite_unseen (enterReleasing_unseen h _ _ s) rfl

theorem tellGroups_unseen (h : Unseen π bRelease) (d) (s : State) : π (tellGroups d s) = π s :=
  forEach_unseen (fun _ s => ite_unseen (sealCheck_unseen h _ s) rfl) _ s

theorem countdownOver_unseen (h : Unseen π bRelease) (g) (s : State) : π (countdownOver g s) = π s := by
  unfold countdownOver
  simp only []
  refine ite_unseen (enterReleasing_unseen h _ _ s) ?_
  rw [onlyIf_unseen (fun s => sealExpire_unseen h _ s), moveInner_unseen h]
  exact onGroup_unseen (h .release (by decide)) _ _ s

theorem countTick_unseen (h : Unseen π bRelease) (g) (s : State) : π (countTick g s) = π s := by
  unfold countTick
  simp only []
  rw [onlyIf_unseen (fun s => countdownOver_unseen h _ s)]
  exact onGroup_unseen (h .release (by decide)) _ _ s

/-! ### The Alarm Queue (07) -/

theorem putAlarm_unseen (h : Blind π .alarms) (r) (s : State) : π (putAlarm r s) = π s := h s _
theorem dropAlarm_unseen (h : Blind π .alarms) (r) (s : State) : π (dropAlarm r s) = π s := h s _

theorem handOnAlarms_unseen (h : Unseen π bAlarms) (zs ns) (s : State) : π (handOnAlarms zs ns s) = π s := by
  have ho : ∀ (c : Bool) (ps t vs) (s : State), π (onlyIf c (offer ps t vs) s) = π s := fun c ps t vs s =>
    onlyIf_unseen (fun s => offer_unseen (h .ports (by decide)) _ _ _ s) c s
  unfold handOnAlarms
  simp only []
  rw [ho, ho, forEach_unseen (fun n s => offer_unseen (h .ports (by decide)) _ _ _ s)]
  refine (h .alarms (by decide) _ _).trans ?_
  exact forEach_unseen (fun z s => recomputeZone_unseen (h.mono (by decide)) z s) _ s

theorem mergeAlarm_unseen (h : Unseen π bAlarms) (a r) (s : State) : π (mergeAlarm a r s) = π s :=
  (handOnAlarms_unseen h _ _ _).trans (putAlarm_unseen (h .alarms (by decide)) _ s)

theorem raiseAlarm_unseen (h : Unseen π bAlarms) (a zs b) (s : State) : π (raiseAlarm a zs b s) = π s :=
  (handOnAlarms_unseen h _ _ _).trans (h .alarms (by decide) s _)

theorem overflowAlarm_unseen (h : Unseen π bAlarms) (a) (s : State) : π (overflowAlarm a s) = π s := by
  unfold overflowAlarm
  simp only []
  rw [onlyIf_unseen (fun s => setOccUnknown_unseen h _ s), offer_unseen (h .ports (by decide))]
  exact h .alarms (by decide) s _

theorem arriveFull_unseen (h : Unseen π bAlarms) (a) (s : State) : π (arriveFull a s) = π s := by
  unfold arriveFull
  split
  · exact overflowAlarm_unseen h a s
  · exact ite_unseen (overflowAlarm_unseen h a s)
      ((raiseAlarm_unseen h _ _ _ _).trans (dropAlarm_unseen (h .alarms (by decide)) _ s))

theorem arrive_unseen (h : Unseen π bAlarms) (a) (s : State) : π (arrive a s) = π s := by
  unfold arrive
  split
  · exact mergeAlarm_unseen h _ _ s
  · exact ite_unseen (raiseAlarm_unseen h _ _ _ s) (arriveFull_unseen h a s)

theorem endRecordCause_unseen (h : Unseen π bAlarms) (r) (s : State) : π (endRecordCause r s) = π s := by
  unfold endRecordCause
  exact ite_unseen ((handOnAlarms_unseen h _ _ _).trans (dropAlarm_unseen (h .alarms (by decide)) _ s))
    ((handOnAlarms_unseen h _ _ _).trans (putAlarm_unseen (h .alarms (by decide)) _ s))

theorem endCause_unseen (h : Unseen π bAlarms) (k) (s : State) : π (endCause k s) = π s := by
  unfold endCause
  split
  · exact ite_unseen (endRecordCause_unseen h _ s) rfl
  · rfl

theorem acknowledge_unseen (h : Unseen π bAlarms) (r) (s : State) : π (acknowledge r s) = π s := by
  unfold acknowledge
  refine ite_unseen rfl (ite_unseen ?_ ?_)
  · exact (handOnAlarms_unseen h _ _ _).trans (putAlarm_unseen (h .alarms (by decide)) _ s)
  · exact (handOnAlarms_unseen h _ _ _).trans (dropAlarm_unseen (h .alarms (by decide)) _ s)

theorem clearRecord_unseen (h : Unseen π bAlarms) (r) (s : State) : π (clearRecord r s) = π s :=
  (handOnAlarms_unseen h _ _ _).trans (dropAlarm_unseen (h .alarms (by decide)) _ s)

theorem escalate_unseen (h : Unseen π bAlarms) (r) (s : State) : π (escalate r s) = π s :=
  (handOnAlarms_unseen h _ _ _).trans (putAlarm_unseen (h .alarms (by decide)) _ s)

/-! ### The After-Hours Unit and the Roster (05, 02) -/

theorem audit_unseen (h : Unseen π [.ports, .afterHours]) (k z c d g r) (s : State) :
    π (audit k z c d g r s) = π s := by
  unfold audit auditNotice
  exact (ite_unseen (offer_unseen (h .ports (by decide)) _ _ _ _) (offer_unseen (h .ports (by decide)) _ _ _ _)).trans
    (h .afterHours (by decide) s _)

theorem grantState_unseen (h : Unseen π [.ports, .afterHours]) (g st) (s : State) : π (grantState g st s) = π s :=
  (offer_unseen (h .ports (by decide)) _ _ _ _).trans (putGrant_unseen (h .afterHours (by decide)) _ _ s)

theorem freeGrant_unseen (h : Unseen π [.ports, .afterHours]) (g) (s : State) : π (freeGrant g s) = π s :=
  (audit_unseen h _ _ _ _ _ _ _).trans (grantState_unseen h _ _ s)

theorem giveUpPlace_unseen (h : Unseen π [.ports, .afterHours]) (g) (s : State) : π (giveUpPlace g s) = π s := by
  unfold giveUpPlace
  exact (onlyIf_unseen (fun s => freeGrant_unseen h g s) _ _).trans (putGrant_unseen (h .afterHours (by decide)) _ _ s)

theorem overstayed_unseen (h : Unseen π bRoster) (g c) (s : State) : π (overstayed g c s) = π s :=
  (audit_unseen (h.mono (by decide)) _ _ _ _ _ _ _).trans (arrive_unseen (h.mono (by decide)) _ s)

theorem expireGrant_unseen (h : Unseen π bRoster) (g) (s : State) : π (expireGrant g s) = π s := by
  unfold expireGrant
  refine ite_unseen (freeGrant_unseen (h.mono (by decide)) g s) ?_
  exact (forEach_unseen (fun i s => overstayed_unseen h _ _ s) _ _).trans
    (grantState_unseen (h.mono (by decide)) _ _ s)

theorem endGrants_unseen (h : Unseen π bRoster) (g) (s : State) : π (endGrants g s) = π s :=
  forEach_unseen (fun _ s => expireGrant_unseen h _ s) _ s

theorem takePlace_unseen (h : Unseen π [.afterHours, .roster]) (i d a) (s : State) :
    π (takePlace i d a s) = π s := by
  have hg : ∀ o : Option Nat, π (match o with
      | some g => putGrant g { s.grant g with count := (s.grant g).count + 1 } s
      | none => s) = π s := by
    intro o
    cases o
    · rfl
    · exact putGrant_unseen (h .afterHours (by decide)) _ _ s
  unfold takePlace
  simp only []
  refine ite_unseen ?_ ?_
  · exact (putPlace_unseen (h .afterHours (by decide)) _ _ _).trans
      ((putSlot_unseen (h .roster (by decide)) _ _ _).trans (hg _))
  · exact (putSlot_unseen (h .roster (by decide)) _ _ _).trans (hg _)

theorem undoPlace_unseen (h : Unseen π bRoster) (i) (s : State) : π (undoPlace i s) = π s := by
  unfold undoPlace
  split
  · rfl
  · rename_i p _
    simp only []
    have hs : π (if (s.slot i).state = .free then s else putSlot i { s.slot i with grant := p.former } s) = π s :=
      ite_unseen rfl (putSlot_unseen (h .roster (by decide)) _ _ s)
    split
    · exact (giveUpPlace_unseen (h.mono (by decide)) _ _).trans
        ((putPlace_unseen (h .afterHours (by decide)) _ _ _).trans hs)
    · exact (putPlace_unseen (h .afterHours (by decide)) _ _ _).trans hs

theorem endMissed_unseen (h : Unseen π bAlarms) (old) (s : State) : π (endMissed old s) = π s :=
  ite_unseen (endCause_unseen h _ s) rfl

theorem checkIn_unseen (h : Unseen π bRoster) (i) (s : State) : π (checkIn i s) = π s :=
  (endMissed_unseen (h.mono (by decide)) _ _).trans (putSlot_unseen (h .roster (by decide)) _ _ s)

theorem checkInPresented_unseen (h : Unseen π bRoster) (c f) (s : State) : π (checkInPresented c f s) = π s := by
  unfold checkInPresented
  split
  · exact ite_unseen (checkIn_unseen h _ s) rfl
  · rfl

theorem checkInButton_unseen (h : Unseen π bRoster) (z) (s : State) : π (checkInButton z s) = π s :=
  forEach_unseen (fun _ s => checkIn_unseen h _ s) _ s

theorem beginGrace_unseen (h : Blind π .roster) (i) (s : State) : π (beginGrace i s) = π s := by
  unfold beginGrace
  simp only []
  split
  · exact ite_unseen (putSlot_unseen h _ _ s) rfl
  · rfl

theorem missCheckIn_unseen (h : Unseen π bRoster) (i) (s : State) : π (missCheckIn i s) = π s := by
  unfold missCheckIn
  simp only []
  split
  · refine ite_unseen ?_ rfl
    rw [offer_unseen (h .ports (by decide)), arrive_unseen (h.mono (by decide))]
    exact putSlot_unseen (h .roster (by decide)) _ _ s
  · rfl

theorem carryOver_unseen (h : Unseen π bRoster) (z i) (s : State) : π (carryOver z i s) = π s :=
  (audit_unseen (h.mono (by decide)) _ _ _ _ _ _ _).trans (putSlot_unseen (h .roster (by decide)) _ _ s)

theorem dropMark_unseen (h : Unseen π bRoster) (i) (s : State) : π (dropMark i s) = π s :=
  (endMissed_unseen (h.mono (by decide)) _ _).trans (putSlot_unseen (h .roster (by decide)) _ _ s)

theorem transition_unseen (h : Unseen π bRoster) (z into) (s : State) : π (transition z into s) = π s := by
  unfold transition
  simp only []
  rw [offer_unseen (h .ports (by decide))]
  refine (ite_unseen (forEach_unseen (fun i s => carryOver_unseen h z i s) _ _)
    (forEach_unseen (fun i s => dropMark_unseen h i s) _ _)).trans ?_
  exact putZone_unseen (h .zones (by decide)) _ _ s

theorem evaluateZones_unseen (h : Unseen π bRoster) (s : State) : π (evaluateZones s) = π s :=
  forEach_unseen (fun _ s => ite_unseen rfl (transition_unseen h _ _ s)) _ s

theorem settleMark_unseen (h : Unseen π bRoster) (i old z d p) (s : State) :
    π (settleMark i old z d p s) = π s := by
  have ha : ∀ k z c d g r s, π (audit k z c d g r s) = π s := fun k z c d g r s =>
    audit_unseen (h.mono (by decide)) k z c d g r s
  have he : ∀ o s, π (endMissed o s) = π s := fun o s => endMissed_unseen (h.mono (by decide)) o s
  have hp : ∀ i v s, π (putSlot i v s) = π s := fun i v s => putSlot_unseen (h .roster (by decide)) i v s
  unfold settleMark
  simp only []
  split
  · exact ite_unseen ((he _ _).trans (ha _ _ _ _ _ _ _)) rfl
  · refine ite_unseen (ite_unseen ?_ (ite_unseen ?_ ?_)) (ite_unseen ?_ (ite_unseen ?_ rfl))
    · rw [he, ha, hp]
    · rw [he, hp]
    · rw [ha, hp]
    · rw [he, ha, hp]
    · rw [he, ha, hp]

theorem leaveGrant_unseen (h : Unseen π bRoster) (g old) (s : State) : π (leaveGrant g old s) = π s :=
  (giveUpPlace_unseen (h.mono (by decide)) _ _).trans
    (onlyIf_unseen (fun s => endCause_unseen (h.mono (by decide)) _ s) _ s)

theorem joinGrant_unseen (h : Unseen π bRoster) (g c) (s : State) : π (joinGrant g c s) = π s :=
  onlyIf_unseen (fun s => overstayed_unseen h _ _ s) _ s

theorem settle_unseen (h : Unseen π bRoster) (i old d) (s : State) : π (settle i old d s) = π s := by
  have hs : ∀ v, π (if (s.slot i).state = .free then s else putSlot i v s) = π s := fun v =>
    ite_unseen rfl (putSlot_unseen (h .roster (by decide)) _ _ s)
  unfold settle
  simp only []
  rw [putPlace_unseen (h .afterHours (by decide))]
  split
  · rw [joinGrant_unseen h]
    split
    · rw [leaveGrant_unseen h, settleMark_unseen h]; exact hs _
    · rw [settleMark_unseen h]; exact hs _
  · split
    · rw [leaveGrant_unseen h, settleMark_unseen h]; exact hs _
    · rw [settleMark_unseen h]; exact hs _

theorem reserveEntrant_unseen (h : Unseen π bRoster) (d t c u a) (s : State) :
    π (reserveEntrant d t c u a s) = π s := by
  have hp : ∀ i v s, π (takePlace i d a (putSlot i v s)) = π s := fun i v s =>
    (takePlace_unseen (h.mono (by decide)) _ _ _ _).trans (putSlot_unseen (h .roster (by decide)) i v s)
  unfold reserveEntrant
  split
  · refine ite_unseen ?_ rfl
    split
    · exact hp _ _ _
    · rfl
  · refine ite_unseen rfl ?_
    split
    · exact hp _ _ _
    · rfl
  · rfl

theorem reserveEgress_unseen (h : Unseen π bRoster) (d t c u f) (s : State) :
    π (reserveEgress d t c u f s) = π s := by
  have hp : ∀ i v s, π (takePlace i d none (putSlot i v s)) = π s := fun i v s =>
    (takePlace_unseen (h.mono (by decide)) _ _ _ _).trans (putSlot_unseen (h .roster (by decide)) i v s)
  unfold reserveEgress
  split
  · refine ite_unseen rfl ?_
    split
    · exact hp _ _ _
    · rfl
  · refine ite_unseen ?_ rfl
    split
    · exact hp _ _ _
    · rfl
  · rfl

theorem cancel_unseen (h : Unseen π bRoster) (d) (s : State) : π (cancel d s) = π s :=
  (forEach_unseen (fun i s => undoPlace_unseen h i s) _ _).trans
    (forEach_unseen (fun _ s => putSlot_unseen (h .roster (by decide)) _ _ s) _ s)

theorem handOnRoster_unseen (h : Unseen π bRoster) (old is d) (s : State) : π (handOnRoster old is d s) = π s :=
  (forEach_unseen (fun g s => recompute_unseen (h.mono (by decide)) g s) _ _).trans
    (forEach_unseen (fun i s => settle_unseen h i _ d s) _ s)

theorem commit_unseen (h : Unseen π bRoster) (d) (s : State) : π (commit d s) = π s :=
  ite_unseen rfl ((handOnRoster_unseen h _ _ _ _).trans
    (forEach_unseen (fun _ s => putSlot_unseen (h .roster (by decide)) _ _ s) _ s))

theorem markDuress_unseen (h : Blind π .roster) (c u) (s : State) : π (markDuress c u s) = π s := by
  unfold markDuress
  split
  · exact putSlot_unseen h _ _ s
  · rfl

/-! ### The Credential Store (04) -/

theorem readEffects_unseen (h : Unseen π [.ports, .store]) (i c) (s : State) : π (readEffects i c s) = π s := by
  unfold readEffects
  split
  · rfl
  · exact onStore_unseen (h .store (by decide)) _ s
  · exact (offer_unseen (h .ports (by decide)) _ _ _ _).trans (onStore_unseen (h .store (by decide)) _ s)

theorem lookUp_unseen (h : Unseen π [.ports, .store]) (p c) (s : State) : π (lookUp p c s).2 = π s := by
  unfold lookUp
  split
  · rfl
  · split
    · rfl
    · exact readEffects_unseen h _ _ s

theorem grantScrub_unseen (h : Blind π .store) (s : State) : π (grantScrub s) = π s := by
  unfold grantScrub
  simp only []
  split
  · exact onStore_unseen h _ s
  · exact onStore_unseen h _ s

theorem grantTurn_unseen (h : Unseen π [.ports, .store]) (t) (s : State) : π (grantTurn t s) = π s := by
  have hs : ∀ f s, π (onStore f s) = π s := fun f s => onStore_unseen (h .store (by decide)) f s
  unfold grantTurn
  split
  · exact grantScrub_unseen (h .store (by decide)) s
  · exact hs _ s
  · exact hs _ s
  · simp only []
    split
    · rw [endWork_unseen (h .ports (by decide)), hs]
    · rw [hs, hs]

theorem arbitrateFor_unseen (h : Unseen π [.ports, .store]) (n) (s : State) : π (arbitrateFor n s) = π s := by
  induction n generalizing s with
  | zero => rfl
  | succ n ih =>
    unfold arbitrateFor
    split
    · exact (ih _).trans (grantTurn_unseen h _ s)
    · rfl

theorem arbitrate_unseen (h : Unseen π [.ports, .store]) (s : State) : π (arbitrate s) = π s :=
  arbitrateFor_unseen h 5 s

theorem releaseStore_unseen (h : Blind π .store) (s : State) : π (releaseStore s) = π s := h s _

theorem askLookup_unseen (h : Unseen π [.ports, .store]) (l) (s : State) : π (askLookup l s) = π s :=
  (arbitrate_unseen h _).trans (onStore_unseen (h .store (by decide)) _ s)

theorem askPort_unseen (h : Unseen π [.ports, .store]) (hd code op) (s : State) : π (askPort hd code op s) = π s :=
  (arbitrate_unseen h _).trans ((onStore_unseen (h .store (by decide)) _ _).trans
    (beginWork_unseen (h .ports (by decide)) _ _ _ s))

theorem pendantReport_unseen (h : Unseen π bDoors) (c) (s : State) : π (pendantReport c s) = π s := by
  unfold pendantReport
  split
  · exact putAlarm_unseen (h .alarms (by decide)) _ s
  · refine ite_unseen rfl ?_
    exact (arbitrate_unseen (h.mono (by decide)) _).trans
      ((onStore_unseen (h .store (by decide)) _ _).trans (h .alarms (by decide) s _))

theorem finishRead_unseen (h : Unseen π [.ports, .store]) (p i c) (s : State) : π (finishRead p i c s) = π s := by
  have he : ∀ p a b s, π (endWork p a b s) = π s := fun p a b s => endWork_unseen (h .ports (by decide)) p a b s
  unfold finishRead
  simp only []
  refine ite_unseen (he _ _ _ _) ?_
  split <;> exact (he _ _ _ _).trans (readEffects_unseen h _ _ s)

theorem finishModify_unseen (h : Unseen π [.ports, .store]) (p i cs c) (s : State) :
    π (finishModify p i cs c s) = π s := by
  have he : ∀ p a b s, π (endWork p a b s) = π s := fun p a b s => endWork_unseen (h .ports (by decide)) p a b s
  unfold finishModify
  simp only []
  split
  · split
    · exact (he _ _ _ _).trans (readEffects_unseen h _ _ s)
    · refine ite_unseen ((he _ _ _ _).trans (readEffects_unseen h _ _ s)) ?_
      exact (he _ _ _ _).trans ((onStore_unseen (h .store (by decide)) _ _).trans (readEffects_unseen h _ _ s))
  · exact (he _ _ _ _).trans (readEffects_unseen h _ _ s)
  · exact (he _ _ _ _).trans (readEffects_unseen h _ _ s)

end Sys2Proof.Machine
end

