-- ==== Sys2Proof/Laws/FieldFrames.lean ====
section
/-! SUPPORT. What the operations of the doors, the groups, the loop, the clock and the records can change, in the form of
Laws/Frames.lean. -/

namespace Sys2Proof.Machine

variable {α : Type} {π : State → α}

/-! ### Doors (03) -/

theorem changeDoor_unseen (h : Unseen π bDoors) (d f) (s : State) : π (changeDoor d f s) = π s := by
  have hp : ∀ v s, π (putDoor d v s) = π s := fun v s => putDoor_unseen (h .doors (by decide)) d v s
  unfold changeDoor
  simp only []
  refine ite_unseen (hp _ s) ?_
  rw [onlyIf_unseen (fun s => tellGroups_unseen (h.mono (by decide)) d s),
    onlyIf_unseen (fun s => endTestOn_unseen (h.mono (by decide)) _ _ s)]
  exact carrying_unseen (h .loop (by decide)) _ _ ((putBase_unseen (h .points (by decide)) _ _ _).trans (hp _ s))

theorem doorNotice_unseen (h : Blind π .ports) (d t vs) (s : State) : π (doorNotice d t vs s) = π s :=
  offer_unseen h _ _ _ s

theorem decisionNotice_unseen (h : Blind π .ports) (d sd b c e) (s : State) :
    π (decisionNotice d sd b c e s) = π s :=
  doorNotice_unseen h _ _ _ s

theorem refuseArrival_unseen (h : Unseen π bDoors) (d p) (s : State) : π (refuseArrival d p s) = π s :=
  (decisionNotice_unseen (h .ports (by decide)) _ _ _ _ _ _).trans (changeDoor_unseen h _ _ s)

theorem beginDecision_unseen (h : Unseen π bDoors) (d p) (s : State) : π (beginDecision d p s) = π s :=
  (askLookup_unseen (h.mono (by decide)) _ _).trans (changeDoor_unseen h _ _ s)

theorem present_unseen (h : Unseen π bDoors) (d p) (s : State) : π (present d p s) = π s := by
  have hs : ∀ c f v, π (changeDoor d v (checkInPresented c f s)) = π s := fun c f v =>
    (changeDoor_unseen h _ _ _).trans (checkInPresented_unseen (h.mono (by decide)) _ _ s)
  unfold present
  simp only []
  refine ite_unseen ((doorNotice_unseen (h .ports (by decide)) _ _ _ _).trans (hs _ _ _)) ?_
  refine ite_unseen ((refuseArrival_unseen h _ _ _).trans (hs _ _ _)) ?_
  split <;> first
    | exact (beginDecision_unseen h _ _ _).trans (hs _ _ _)
    | exact (refuseArrival_unseen h _ _ _).trans (hs _ _ _)

theorem raiseDuress_unseen (h : Unseen π bDoors) (z f u) (s : State) : π (raiseDuress z f u s) = π s := by
  unfold raiseDuress
  split
  · exact ite_unseen (arrive_unseen (h.mono (by decide)) _ s) rfl
  · rfl

theorem recordSoft_unseen (h : Unseen π bDoors) (d z c u) (s : State) : π (recordSoft d z c u s) = π s :=
  onlyIf_unseen (fun s => audit_unseen (h.mono (by decide)) _ _ _ _ _ _ s) _ s

theorem windowExpire_unseen (h : Unseen π bDoors) (d) (s : State) : π (windowExpire d s) = π s := by
  unfold windowExpire
  split
  · exact (doorNotice_unseen (h .ports (by decide)) _ _ _ _).trans (changeDoor_unseen h _ _ s)
  · rfl

theorem abandonNotice_unseen (h : Blind π .ports) (d p) (s : State) : π (abandonNotice d p s) = π s := by
  unfold abandonNotice
  split
  · exact doorNotice_unseen h _ _ _ s
  · rfl

theorem applyRefusal_unseen (h : Unseen π bDoors) (d sd c f w) (s : State) : π (applyRefusal d sd c f w s) = π s := by
  unfold applyRefusal
  simp only []
  rw [onlyIf_unseen (fun s => doorNotice_unseen (h .ports (by decide)) _ _ _ s),
    decisionNotice_unseen (h .ports (by decide)),
    onlyIf_unseen (fun s => audit_unseen (h.mono (by decide)) _ _ _ _ _ _ s)]
  exact changeDoor_unseen h _ _ s

theorem applyVerdict_unseen (h : Unseen π bDoors) (d sd dec f v) (s : State) :
    π (applyVerdict d sd dec f v s) = π s := by
  have hn : ∀ sd b c e s, π (decisionNotice d sd b c e s) = π s := fun sd b c e s =>
    decisionNotice_unseen (h .ports (by decide)) d sd b c e s
  unfold applyVerdict
  simp only []
  split
  · exact applyRefusal_unseen h _ _ _ _ _ s
  · rw [hn, abandonNotice_unseen (h .ports (by decide)), reserveEgress_unseen (h.mono (by decide))]
    exact changeDoor_unseen h _ _ s
  · rw [hn, recordSoft_unseen h, reserveEntrant_unseen (h.mono (by decide))]
    exact changeDoor_unseen h _ _ s
  · rw [hn, recordSoft_unseen h]
    exact changeDoor_unseen h _ _ s
  · rw [hn, recordSoft_unseen h, reserveEntrant_unseen (h.mono (by decide)), reserveEntrant_unseen (h.mono (by decide))]
    exact changeDoor_unseen h _ _ s

theorem complete_unseen (h : Unseen π bDoors) (d sd dec r) (s : State) : π (complete d sd dec r s) = π s := by
  unfold complete
  simp only []
  split
  · rw [raiseDuress_unseen h, decisionNotice_unseen (h .ports (by decide))]
    exact changeDoor_unseen h _ _ s
  · rw [onlyIf_unseen (fun s => windowExpire_unseen h d s), applyVerdict_unseen h, raiseDuress_unseen h]
    exact ite_unseen (markDuress_unseen (h .roster (by decide)) _ _ s) rfl

theorem goForced_unseen (h : Unseen π bDoors) (d) (s : State) : π (goForced d s) = π s := by
  unfold goForced
  simp only []
  rw [doorNotice_unseen (h .ports (by decide)), setOccUnknown_unseen (h.mono (by decide)),
    arrive_unseen (h.mono (by decide))]
  exact changeDoor_unseen h _ _ s

theorem contactOpens_unseen (h : Unseen π bDoors) (d) (s : State) : π (contactOpens d s) = π s := by
  unfold contactOpens
  simp only []
  split
  · exact ite_unseen (changeDoor_unseen h _ _ s) (goForced_unseen h d s)
  · exact goForced_unseen h d s
  · exact (doorNotice_unseen (h .ports (by decide)) _ _ _ _).trans (changeDoor_unseen h _ _ s)
  · exact changeDoor_unseen h _ _ s

theorem endDoorCauses_unseen (h : Unseen π bDoors) (d) (s : State) : π (endDoorCauses d s) = π s :=
  (endCause_unseen (h.mono (by decide)) _ _).trans (endCause_unseen (h.mono (by decide)) _ s)

theorem contactCloses_unseen (h : Unseen π bDoors) (d) (s : State) : π (contactCloses d s) = π s := by
  have hc : ∀ c f, π (doorNotice d .doorClosed (s.door d).releaseVals
      (endDoorCauses d (changeDoor d f (onlyIf c (commit d) s)))) = π s := fun c f => by
    rw [doorNotice_unseen (h .ports (by decide)), endDoorCauses_unseen h, changeDoor_unseen h]
    exact onlyIf_unseen (fun s => commit_unseen (h.mono (by decide)) d s) _ s
  unfold contactCloses
  simp only []
  split <;> first
    | exact hc _ _
    | exact changeDoor_unseen h _ _ s

theorem contactReads_unseen (h : Unseen π bDoors) (d r) (s : State) : π (contactReads d r s) = π s := by
  unfold contactReads
  split <;> first
    | rfl
    | exact contactOpens_unseen h d s
    | exact contactCloses_unseen h d s

theorem pressExit_unseen (h : Unseen π bDoors) (d sd) (s : State) : π (pressExit d sd s) = π s := by
  unfold pressExit
  simp only []
  refine ite_unseen rfl ?_
  split <;> first
    | rfl
    | exact (abandonNotice_unseen (h .ports (by decide)) _ _ _).trans (changeDoor_unseen h _ _ s)

theorem withdrawRelease_unseen (h : Unseen π bDoors) (d) (s : State) : π (withdrawRelease d s) = π s :=
  (doorNotice_unseen (h .ports (by decide)) _ _ _ _).trans
    ((cancel_unseen (h.mono (by decide)) _ _).trans (changeDoor_unseen h _ _ s))

theorem withdrawDoor_unseen (h : Unseen π bDoors) (z w d) (s : State) : π (withdrawDoor z w d s) = π s := by
  unfold withdrawDoor
  simp only []
  split
  · split
    · exact ite_unseen (withdrawRelease_unseen h d s) rfl
    · exact ite_unseen (withdrawRelease_unseen h d s) rfl
    · rfl
  · split
    · exact ite_unseen ((doorNotice_unseen (h .ports (by decide)) _ _ _ _).trans (changeDoor_unseen h _ _ s)) rfl
    · rfl
  · rfl

theorem overlayOnset_unseen (h : Unseen π bDoors) (w z) (s : State) : π (overlayOnset w z s) = π s :=
  forEach_unseen (fun d s => withdrawDoor_unseen h z w d s) _ s

theorem doorLost_unseen (h : Unseen π bDoors) (d) (s : State) : π (doorLost d s) = π s := by
  unfold doorLost
  simp only []
  rw [doorNotice_unseen (h .ports (by decide)), changeDoor_unseen h]
  split <;> first
    | rfl
    | exact cancel_unseen (h.mono (by decide)) d s
    | exact commit_unseen (h.mono (by decide)) d s

theorem doorRestored_unseen (h : Unseen π bDoors) (d r) (s : State) : π (doorRestored d r s) = π s := by
  unfold doorRestored
  simp only []
  split
  · exact (doorNotice_unseen (h .ports (by decide)) _ _ _ _).trans
      ((endDoorCauses_unseen h _ _).trans (changeDoor_unseen h _ _ s))
  · exact (doorNotice_unseen (h .ports (by decide)) _ _ _ _).trans
      ((endCause_unseen (h.mono (by decide)) _ _).trans (goForced_unseen h d s))
  · rfl

theorem lockdownNotice_unseen (h : Blind π .ports) (z) (s : State) : π (lockdownNotice z s) = π s :=
  offer_unseen h _ _ _ s

/-! ### Groups (06) -/

theorem tellOverrides_unseen (h : Unseen π bDoors) (g o old named) (s : State) :
    π (tellOverrides g o old named s) = π s := by
  unfold tellOverrides
  simp only []
  rw [onlyIf_unseen (fun s => offer_unseen (h .ports (by decide)) _ _ _ s)]
  exact noteImages_unseen (h .loop (by decide)) _ _ s

theorem changeGroup_unseen (h : Unseen π bDoors) (g st c) (s : State) : π (changeGroup g st c s) = π s := by
  unfold changeGroup
  simp only []
  rw [writeWarnings_unseen (h.mono (by decide)), testSeesGroup_unseen (h.mono (by decide)),
    onlyIf_unseen (fun s => tellOverrides_unseen h _ _ _ _ s),
    onlyIf_unseen (fun s => forEach_unseen (fun z s => overlayOnset_unseen h _ z s) _ s)]
  exact nameState_unseen (h.mono (by decide)) _ _ _ s

theorem beginCountdown_unseen (h : Unseen π bDoors) (g c) (s : State) : π (beginCountdown g c s) = π s :=
  (changeGroup_unseen h _ _ _ _).trans (onGroup_unseen (h .release (by decide)) _ _ s)

theorem confirm_unseen (h : Unseen π bDoors) (g c) (s : State) : π (confirm g c s) = π s :=
  ite_unseen (groupNotice_unseen (h .ports (by decide)) _ _ _ s) (beginCountdown_unseen h g c s)

theorem evaluate_unseen (h : Unseen π bDoors) (g c) (s : State) : π (evaluate g c s) = π s := by
  unfold evaluate
  simp only []
  rw [forEach_unseen (fun _ s => groupNotice_unseen (h .ports (by decide)) _ _ _ s)]
  refine ite_unseen (ite_unseen ?_ (beginCountdown_unseen h g c s)) (changeGroup_unseen h _ _ _ s)
  exact (groupNotice_unseen (h .ports (by decide)) _ _ _ _).trans (changeGroup_unseen h _ _ _ s)

theorem evaluateStartup_unseen (h : Unseen π bDoors) (s : State) : π (evaluateStartup s) = π s :=
  forEach_unseen (fun _ s => ite_unseen (evaluate_unseen h _ _ s) rfl) _ s

theorem detectorNotices_unseen (h : Blind π .ports) (old g pt) (s : State) :
    π (detectorNotices old g pt s) = π s := by
  unfold detectorNotices
  simp only []
  rw [onlyIf_unseen (fun s => groupNotice_unseen h _ _ _ s), onlyIf_unseen (fun s => groupNotice_unseen h _ _ _ s)]

theorem detectionReaction_unseen (h : Unseen π bDoors) (old g pt) (s : State) :
    π (detectionReaction old g pt s) = π s := by
  unfold detectionReaction
  simp only []
  split
  · refine ite_unseen ?_ rfl
    exact (onlyIf_unseen (fun s => confirm_unseen h _ _ s) _ _).trans (changeGroup_unseen h _ _ _ s)
  · exact ite_unseen (confirm_unseen h _ _ s) (ite_unseen (changeGroup_unseen h _ _ _ s) rfl)
  · exact onlyIf_unseen (fun s => groupNotice_unseen (h .ports (by decide)) _ _ _ s) _ s
  · rfl

theorem detectionSeen_unseen (h : Unseen π bDoors) (old n) (s : State) : π (detectionSeen old n s) = π s :=
  forEach_unseen (fun _ s => forEach_unseen (fun _ s => ite_unseen
    ((detectionReaction_unseen h _ _ _ _).trans (detectorNotices_unseen (h .ports (by decide)) _ _ _ s)) rfl) _ s) _ s

theorem abortNotice_unseen (h : Blind π .ports) (old z n c) (s : State) : π (abortNotice old z n c s) = π s := by
  unfold abortNotice
  split
  · exact onlyIf_unseen (fun s => groupNotice_unseen h _ _ _ s) _ s
  · rfl

theorem circuitsForgotten_unseen (h : Blind π .ports) (old n) (s : State) : π (circuitsForgotten old n s) = π s := by
  unfold circuitsForgotten
  refine forEach_unseen (fun c t => ?_) _ s
  split
  · exact forEach_unseen (fun g t => onlyIf_unseen (fun t => detectorNotices_unseen h _ _ _ t) _ t) _ t
  · exact onlyIf_unseen (fun t => abortNotice_unseen h _ _ _ _ t) _ t
  · rfl

theorem judgeSince_unseen (h : Unseen π bRelease) (old g) (s : State) : π (judgeSince old g s) = π s :=
  judgeHold_unseen h _ _ _ s

theorem judgeStation_unseen (h : Unseen π bRelease) (old n) (s : State) : π (judgeStation old n s) = π s :=
  forEach_unseen (fun g s => judgeSince_unseen h old g s) _ s

theorem judgeHolds_unseen (h : Unseen π bRelease) (old) (s : State) : π (judgeHolds old s) = π s :=
  forEach_unseen (fun g s => judgeSince_unseen h old g s) _ s

theorem pressManual_unseen (h : Unseen π bDoors) (g n) (s : State) : π (pressManual g n s) = π s := by
  have hn : ∀ t vs s, π (groupNotice g t vs s) = π s := fun t vs s => groupNotice_unseen (h .ports (by decide)) g t vs s
  have hg : ∀ f s, π (onGroup g f s) = π s := fun f s => onGroup_unseen (h .release (by decide)) g f s
  unfold pressManual
  simp only []
  split
  · exact ite_unseen (hn _ _ s) ((hn _ _ _).trans ((changeGroup_unseen h _ _ _ _).trans (hg _ s)))
  · exact ite_unseen (hn _ _ s) ((hn _ _ _).trans ((changeGroup_unseen h _ _ _ _).trans (hg _ s)))
  · exact (hn _ _ _).trans ((onlyIf_unseen (fun s => changeGroup_unseen h _ _ _ s) _ _).trans (hg _ s))
  · exact (hn _ _ _).trans ((onlyIf_unseen (fun s => changeGroup_unseen h _ _ _ s) _ _).trans (hg _ s))
  · exact onlyIf_unseen (fun s => hn _ _ s) _ s
  · exact hn _ _ s
  · rfl
  · rfl
  · rfl

theorem writeSpent_unseen (h : Unseen π bField) (g v) (s : State) : π (writeSpent g v s) = π s := by
  unfold writeSpent
  simp only []
  rw [onlyIf_unseen (fun s => groupNotice_unseen (h .ports (by decide)) _ _ _ s)]
  exact (onGroup_unseen (h .release (by decide)) _ _ _).trans (h .nv (by decide) s _)

theorem discharge_unseen (h : Unseen π bField) (g) (s : State) : π (discharge g s) = π s := by
  unfold discharge
  simp only []
  rw [groupNotice_unseen (h .ports (by decide)), endGrants_unseen (h.mono (by decide)),
    forEach_unseen (fun z s => arrive_unseen (h.mono (by decide)) _ s), writeSpent_unseen h,
    changeGroup_unseen (h.mono (by decide))]
  exact (putLine_unseen (h .release (by decide)) _ _ _).trans (onGroup_unseen (h .release (by decide)) _ _ s)

theorem setPanelHold_unseen (h : Unseen π bRelease) (g v) (s : State) : π (setPanelHold g v s) = π s :=
  ite_unseen rfl ((judgeHold_unseen h _ _ _ _).trans (onGroup_unseen (h .release (by decide)) _ _ s))

theorem markLost_unseen (h : Unseen π bRelease) (g) (s : State) : π (markLost g s) = π s :=
  (judgeSince_unseen h _ _ _).trans (h .release (by decide) s _)

theorem lockOut_unseen (h : Unseen π bDoors) (g) (s : State) : π (lockOut g s) = π s :=
  (changeGroup_unseen h _ _ _ _).trans (onGroup_unseen (h .release (by decide)) _ _ s)

/-! ### Loop test and field loop (08, 09) -/

theorem windowEnd_unseen (h : Unseen π [.ports, .loopTest]) (t) (s : State) : π (windowEnd t s) = π s :=
  (offer_unseen (h .ports (by decide)) _ _ _ _).trans (putTest_unseen (h .loopTest (by decide)) _ s)

theorem testEnded_unseen (h : Unseen π [.ports, .loopTest]) (e) (s : State) : π (testEnded e s) = π s := by
  unfold testEnded
  simp only []
  split
  · rfl
  · refine ite_unseen ?_ ?_
    · exact (windowEnd_unseen h _ _).trans (onlyIf_unseen (fun s => offer_unseen (h .ports (by decide)) _ _ _ s) _ s)
    · exact (putTest_unseen (h .loopTest (by decide)) _ _).trans
        (onlyIf_unseen (fun s => offer_unseen (h .ports (by decide)) _ _ _ s) _ s)

theorem beginExchange_unseen (h : Blind π .loop) (n u c) (s : State) : π (beginExchange n u c s) = π s :=
  h s _

theorem listStep_unseen (h : Blind π .loop) (s : State) : π (listStep s) = π s := by
  unfold listStep
  split
  · rfl
  · split
    · exact ite_unseen ((beginExchange_unseen h _ _ _ _).trans (onLoop_unseen h _ s)) (beginExchange_unseen h _ _ _ s)
    · exact beginExchange_unseen h _ _ _ s

theorem nextExchange_unseen (h : Blind π .loop) (s : State) : π (nextExchange s) = π s := by
  unfold nextExchange
  refine ite_unseen rfl ?_
  split
  · exact (beginExchange_unseen h _ _ _ _).trans (onLoop_unseen h _ s)
  · exact (listStep_unseen h _).trans (onLoop_unseen h _ s)

theorem judgeCall_unseen (h : Unseen π bAlarms) (l z) (s : State) : π (judgeCall l z s) = π s := by
  unfold judgeCall
  split
  · rfl
  · exact ite_unseen (onlyIf_unseen (fun s => putAlarm_unseen (h .alarms (by decide)) _ s) _ s)
      (onlyIf_unseen (fun s => endRecordCause_unseen h _ s) _ s)

theorem judgeCalls_unseen (h : Unseen π bAlarms) (s : State) : π (judgeCalls s) = π s :=
  forEach_unseen (fun z s => judgeCall_unseen h false z s) _ s

theorem stationCircuit_unseen (h : Unseen π bField) (old n p c) (s : State) :
    π (stationCircuit old n p c s) = π s := by
  unfold stationCircuit
  simp only []
  split
  · rfl
  · split
    · rfl
    · exact (onlyIf_unseen (fun s => judgeSince_unseen (h.mono (by decide)) _ _ s) _ _).trans
        (abortNotice_unseen (h .ports (by decide)) _ _ _ _ s)
  · split
    · rfl
    · exact onlyIf_unseen (fun s => pressManual_unseen (h.mono (by decide)) _ _ s) _ s
  · exact ite_unseen (arrive_unseen (h.mono (by decide)) _ s)
      (judgeCall_unseen (h.mono (by decide)) _ _ s)
  · exact onlyIf_unseen (fun s => checkInButton_unseen (h.mono (by decide)) _ s) _ s

theorem handCircuits_unseen (h : Unseen π bField) (old n p) (s : State) : π (handCircuits old n p s) = π s := by
  have hx : ∀ d sd c s, π (onlyIf c (pressExit d sd) s) = π s := fun d sd c s =>
    onlyIf_unseen (fun s => pressExit_unseen (h.mono (by decide)) d sd s) c s
  unfold handCircuits
  simp only []
  split
  · split
    · rfl
    · rw [onlyIf_unseen (fun s => contactReads_unseen (h.mono (by decide)) _ _ s), hx, hx]
  · exact onlyIf_unseen (fun s => detectionSeen_unseen (h.mono (by decide)) _ _ s) _ s
  · exact forEach_unseen (fun c s => stationCircuit_unseen h _ _ _ c s) _ s
  · rfl

theorem handEvents_unseen (h : Unseen π bField) (n ev) (s : State) : π (handEvents n ev s) = π s := by
  unfold handEvents
  split
  · split
    · exact forEach_unseen (fun _ s => present_unseen (h.mono (by decide)) _ _ s) _ s
    · rfl
  · exact forEach_unseen (fun _ s => pendantReport_unseen (h.mono (by decide)) _ s) _ s
  · rfl

theorem nodeNotice_unseen (h : Blind π .ports) (t n f) (s : State) : π (nodeNotice t n f s) = π s :=
  offer_unseen h _ _ _ s

theorem releaseSees_unseen (h : Unseen π bDoors) (old n) (s : State) : π (releaseSees old n s) = π s := by
  unfold releaseSees
  split
  · exact detectionSeen_unseen h _ _ s
  · exact judgeStation_unseen (h.mono (by decide)) _ _ s
  · rfl

theorem nodeLost_unseen (h : Unseen π bField) (old n f) (s : State) : π (nodeLost old n f s) = π s := by
  unfold nodeLost
  simp only []
  rw [nodeNotice_unseen (h .ports (by decide)), endTestOn_unseen (h.mono (by decide)),
    releaseSees_unseen (h.mono (by decide))]
  split
  · exact doorLost_unseen (h.mono (by decide)) _ s
  · rfl

theorem nodeOnline_unseen (h : Unseen π bField) (old n f) (s : State) : π (nodeOnline old n f s) = π s := by
  unfold nodeOnline
  simp only []
  rw [nodeNotice_unseen (h .ports (by decide)), releaseSees_unseen (h.mono (by decide))]
  refine (h .release (by decide) _ _).trans ?_
  split
  · exact doorRestored_unseen (h.mono (by decide)) _ _ s
  · rfl

theorem supervise_unseen (h : Unseen π bField) (n t g old) (s : State) : π (supervise n t g old s) = π s := by
  have hp : ∀ v, π (putNode n v s) = π s := fun v => putNode_unseen (h .loop (by decide)) n v s
  unfold supervise
  simp only []
  refine ite_unseen (hp _) ?_
  split
  · exact (nodeLost_unseen h _ _ _ _).trans (hp _)
  · exact (nodeOnline_unseen h _ _ _ _).trans (hp _)
  · exact hp _

theorem takeReadings_unseen (h : Blind π .loop) (n r rs) (s : State) : π (takeReadings n r rs s) = π s :=
  putNode_unseen h _ _ s

theorem judgeMoved_unseen (h : Unseen π bRelease) (old n) (s : State) : π (judgeMoved old n s) = π s :=
  onlyIf_unseen (fun s => judgeStation_unseen h _ _ s) _ s

theorem handReply_unseen (h : Unseen π bField) (n k t u rs ev) (s : State) :
    π (handReply n k t u rs ev s) = π s := by
  unfold handReply
  simp only []
  rw [onlyIf_unseen (fun s => putNode_unseen (h .loop (by decide)) _ _ s)]
  have sd : ∀ (c : Prop) [Decidable c] (t' : State), π (if c then handEvents n ev t' else t') = π t' := fun c _ t' =>
    ite_unseen (handEvents_unseen h _ _ _) rfl
  have b : ∀ (c : Prop) [Decidable c] (o p) (t' : State), π (if c then handCircuits o n p t' else t') = π t' :=
    fun c _ o p t' => ite_unseen (handCircuits_unseen h _ _ _ _) rfl
  have r : ∀ (c : Prop) [Decidable c] (t' : State), π (if c then onLoop (Loop.reported n) t' else t') = π t' :=
    fun c _ t' => ite_unseen (onLoop_unseen (h .loop (by decide)) _ _) rfl
  have m : ∀ (c : Prop) [Decidable c] (o) (t' : State), π (if c then judgeMoved o n t' else t') = π t' :=
    fun c _ o t' => ite_unseen (judgeMoved_unseen (h.mono (by decide)) _ _ _) rfl
  rw [sd, onlyIf_unseen (fun s => judgeCalls_unseen (h.mono (by decide)) s), b, m, r, supervise_unseen h]
  exact ite_unseen (takeReadings_unseen (h .loop (by decide)) _ _ _ s) rfl

theorem endOn_unseen (h : Unseen π bField) (ex e) (s : State) : π (endOn ex e s) = π s := by
  have ht : ∀ c o s, π (onlyIf c (testEnded o) s) = π s := fun c o s =>
    onlyIf_unseen (fun s => testEnded_unseen (h.mono (by decide)) o s) c s
  unfold endOn
  split
  · exact handReply_unseen h _ _ _ _ _ _ s
  · rfl
  · exact (supervise_unseen h _ _ _ _ _).trans (ht _ _ s)
  · exact (supervise_unseen h _ _ _ _ _).trans (ht _ _ s)

theorem exchangeOutcome_unseen (h : Unseen π bField) (ex e) (s : State) : π (exchangeOutcome ex e s) = π s :=
  ite_unseen rfl (endOn_unseen h ex e s)

theorem checkPass_unseen (h : Unseen π bDoors) (s : State) : π (checkPass s) = π s := by
  unfold checkPass
  simp only []
  refine ite_unseen ?_ rfl
  rw [offer_unseen (h .ports (by decide)), evaluateStartup_unseen h]
  exact onLoop_unseen (h .loop (by decide)) _ s

theorem leaveStep_unseen (h : Blind π .loop) (ex) (s : State) : π (leaveStep ex s) = π s :=
  ite_unseen (onLoop_unseen h _ s) (ite_unseen (onLoop_unseen h _ s) rfl)

theorem endExchange_unseen (h : Unseen π bField) (ex e) (s : State) : π (endExchange ex e s) = π s := by
  have hl : ∀ f s, π (onLoop f s) = π s := fun f s => onLoop_unseen (h .loop (by decide)) f s
  unfold endExchange
  simp only []
  rw [nextExchange_unseen (h .loop (by decide))]
  have main : ∀ t, π t = π s → π (checkPass (leaveStep ex (exchangeOutcome ex e t))) = π s := fun t ht => by
    rw [checkPass_unseen (h.mono (by decide)), leaveStep_unseen (h .loop (by decide)), exchangeOutcome_unseen h, ht]
  exact ite_unseen (main _ (hl _ s)) ((hl _ _).trans (main _ (hl _ s)))

theorem attemptFails_unseen (h : Unseen π bField) (r) (s : State) : π (attemptFails r s) = π s := by
  have hn : ∀ ex, π (noteFailure ex r s) = π s := fun ex =>
    ite_unseen rfl (putNode_unseen (h .loop (by decide)) _ _ s)
  unfold attemptFails
  split
  · rfl
  · simp only []
    refine ite_unseen rfl (ite_unseen ((endExchange_unseen h _ _ _).trans (hn _)) ?_)
    exact (onLoop_unseen (h .loop (by decide)) _ _).trans (hn _)

/-! ### The clock (01) -/

theorem expireGrants_unseen (h : Unseen π bRoster) (s : State) : π (expireGrants s) = π s :=
  forEach_unseen (fun g s => expireGrant_unseen h g s) _ s

theorem clearClosure_unseen (h : Unseen π [.ports, .clock]) (s : State) : π (clearClosure s) = π s :=
  ite_unseen ((offer_unseen (h .ports (by decide)) _ _ _ _).trans (h .clock (by decide) s _)) rfl

theorem minuteStep_unseen (h : Unseen π (.clock :: bRoster)) (s : State) : π (minuteStep s) = π s := by
  unfold minuteStep
  simp only []
  rw [expireGrants_unseen (h.mono (by decide)), evaluateZones_unseen (h.mono (by decide)),
    onlyIf_unseen (fun s => clearClosure_unseen (h.mono (by decide)) s)]
  exact h .clock (by decide) s _

theorem shiftDeadlines_unseen (h : Blind π .roster) (n) (s : State) : π (shiftDeadlines n s) = π s :=
  forEach_unseen (fun _ s => putSlot_unseen h _ _ s) _ s

theorem shiftExpiries_unseen (h : Blind π .afterHours) (n) (s : State) : π (shiftExpiries n s) = π s :=
  forEach_unseen (fun _ s => putGrant_unseen h _ _ s) _ s

theorem setTime_unseen (h : Unseen π (.clock :: bRoster)) (m) (s : State) : π (setTime m s) = π s := by
  unfold setTime
  simp only []
  rw [offer_unseen (h .ports (by decide)), evaluateZones_unseen (h.mono (by decide)),
    shiftExpiries_unseen (h .afterHours (by decide)), shiftDeadlines_unseen (h .roster (by decide)),
    onlyIf_unseen (fun s => clearClosure_unseen (h.mono (by decide)) s)]
  exact h .clock (by decide) s _

/-! ### Points and ports (09, 10) -/

theorem writeOverride_unseen (h : Unseen π [.ports, .loop, .points]) (pt v) (s : State) :
    π (writeOverride pt v s) = π s :=
  (offer_unseen (h .ports (by decide)) _ _ _ _).trans
    (carrying_unseen (h .loop (by decide)) _ _ (putOverride_unseen (h .points (by decide)) _ _ s))

theorem releaseWhere_unseen (h : Blind π .ports) (p) (s : State) : π (releaseWhere p s) = π s := h s _

theorem releaseRates_unseen (h : Blind π .ports) (p) (s : State) : π (releaseRates p s) = π s :=
  ite_unseen (releaseWhere_unseen h _ s) rfl

theorem holdRates_unseen (h : Blind π .ports) (f) (s : State) : π (holdRates f s) = π s :=
  ite_unseen (releaseWhere_unseen h _ s) (h s _)

theorem applyRates_unseen (h : Unseen π [.ports, .config]) (a b c) (s : State) : π (applyRates a b c s) = π s :=
  (ite_unseen (h .ports (by decide) _ _) rfl).trans (onConfig_unseen (h .config (by decide)) _ s)

theorem stationGone_unseen (h : Unseen π bAlarms) (was n) (s : State) : π (stationGone was n s) = π s :=
  ite_unseen ((judgeCall_unseen h _ _ _).trans ((judgeHolds_unseen (h.mono (by decide)) _ _).trans
    ((circuitsForgotten_unseen (h .ports (by decide)) _ _ _).trans (onLoop_unseen (h .loop (by decide)) _ s)))) rfl

theorem deferRecord_unseen (h : Blind π .loop) (n r was) (s : State) : π (deferRecord n r was s) = π s :=
  putNode_unseen h _ _ s

theorem loseFireLink_unseen (h : Unseen π bRelease) (s : State) : π (loseFireLink s) = π s := by
  unfold loseFireLink
  simp only []
  rw [offer_unseen (h .ports (by decide)), forEach_unseen (fun g s => setPanelHold_unseen h g _ s)]
  exact h .ports (by decide) s _

end Sys2Proof.Machine
end

