-- ==== Sys2Proof/Laws/Layouts.lean ====
section
/-! SUPPORT. The CRC of R201 as division by its generator polynomial, one data bit at a time, and a 16-bit value as its
two bytes. -/

namespace Sys2Proof.Machine

/-- The polynomial over the two-element field whose coefficients are the bits of a word, bit i at X^i. -/
noncomputable def bitPoly {n : Nat} (w : BitVec n) : Polynomial (ZMod 2) :=
  ∑ i ∈ Finset.range n, if w.getLsbD i then Polynomial.X ^ i else 0

theorem bitPoly_xor {n : Nat} (v w : BitVec n) : bitPoly (v ^^^ w) = bitPoly v + bitPoly w := by
  rw [bitPoly, bitPoly, bitPoly, ← Finset.sum_add_distrib]
  refine Finset.sum_congr rfl fun i _ => ?_
  rw [BitVec.getLsbD_xor]
  cases v.getLsbD i <;> cases w.getLsbD i <;> simp [CharTwo.add_self_eq_zero]

/-- The register shifted by one is its polynomial times X, but for the bit that leaves at the top. -/
theorem bitPoly_shift (r : Word16) :
    bitPoly (r <<< 1) + (if r.getLsbD 15 then Polynomial.X ^ 16 else 0) = bitPoly r * Polynomial.X := by
  have low : (r <<< 1).getLsbD 0 = false := by simp
  have up : ∀ i ∈ Finset.range 15, (r <<< 1).getLsbD (i + 1) = r.getLsbD i := fun i hi => by
    have := Finset.mem_range.mp hi
    simp [show i + 1 < 16 by omega, -BitVec.getLsbD_eq_getElem]
  unfold bitPoly
  rw [Finset.sum_range_succ' _ 15, Finset.sum_range_succ _ 15, add_mul, Finset.sum_mul, low,
    Finset.sum_congr rfl fun i hi => by rw [up i hi]]
  simp [ite_mul, pow_succ]

/-- R201: one data bit is one step of the division by the generator polynomial. -/
theorem crcBit_divides (r : Word16) (b : Bool) :
    ∃ q, bitPoly r * Polynomial.X + (if b then Polynomial.X ^ 16 else 0) =
      q * (Polynomial.X ^ 16 + Polynomial.X ^ 12 + Polynomial.X ^ 5 + 1) + bitPoly (crcBit r b) := by
  have gen : bitPoly 0x1021#16 = Polynomial.X ^ 12 + Polynomial.X ^ 5 + 1 := by
    simp [bitPoly, Finset.sum_range_succ]; ring
  have twice : ∀ p : Polynomial (ZMod 2), p + p = 0 := CharTwo.add_self_eq_zero
  rw [← bitPoly_shift, crcBit]
  cases hr : r.getLsbD 15 <;> cases b
  · exact ⟨0, by simp⟩
  · exact ⟨1, by simp only [Bool.false_eq_true, if_false, if_true, bitPoly_xor, gen, beq_iff_eq]
                 linear_combination -(twice (Polynomial.X ^ 12 + Polynomial.X ^ 5 + 1))⟩
  · exact ⟨1, by simp only [Bool.false_eq_true, Bool.true_eq_false, if_false, if_true, bitPoly_xor, gen, beq_iff_eq]
                 linear_combination -(twice (Polynomial.X ^ 12 + Polynomial.X ^ 5 + 1))⟩
  · exact ⟨0, by simpa [add_assoc] using twice _⟩

/-- The CRC register runs on from one byte to the next. -/
theorem crc_snoc (bs : List Byte) (b : Byte) : crc (bs ++ [b]) = (byteBits b).foldl crcBit (crc bs) := by
  simp [crc]

/-- The bytes of a 16-bit value, high byte first, are the two that spell it. -/
theorem wordBytes_eq_iff (hi lo : Byte) (w : Word16) :
    [hi, lo] = wordBytes w ↔ 256 * hi.toNat + lo.toNat = w.toNat := by
  have := w.isLt
  have := hi.isLt
  have := lo.isLt
  simp only [wordBytes, List.cons.injEq, and_true, ← BitVec.toNat_inj, BitVec.toNat_setWidth, BitVec.toNat_ushiftRight,
    Nat.shiftRight_eq_div_pow]
  omega

/-- R187, R201: a receiver in CHECK takes two bytes, judges the frame by them and returns to HUNT. -/
theorem Receive.check_judges (len : Nat) (body : List Byte) (hi lo : Byte) :
    ((Receive.check len body []).take hi).1.take lo =
      (.hunt, if 256 * hi.toNat + lo.toNat = (crc (BitVec.ofNat 8 len :: body)).toNat then some body else none) := by
  simp [Receive.take, wordBytes_eq_iff]

end Sys2Proof.Machine
end

