-- ==== Sys2Proof/Laws/LoopTest.lean ====
section
/-! SUPPORT. What the test pattern, the checker and the end of a TEST exchange can do (R175 to R178), said once case by
case. -/

namespace Sys2Proof.Machine

/-- R175: of the register's seven stages, oldest first, and the byte's eight bits after them, each bit of the byte is the
exclusive-or of the bits six and seven places before it. -/
theorem nextByte_bits (r : BitVec 7) (m : Nat) (lo : 7 ≤ m) (hi : m ≤ 14) :
    let bit := fun (m : Nat) => if m < 7 then r.getLsbD (6 - m) else (nextByte r).getLsbD (14 - m)
    bit m = (bit (m - 6) != bit (m - 7)) := by
  have all : ∀ r : BitVec 7, ∀ m ∈ [7, 8, 9, 10, 11, 12, 13, 14],
      (nextByte r).getLsbD (14 - m) =
        ((if m - 6 < 7 then r.getLsbD (6 - (m - 6)) else (nextByte r).getLsbD (14 - (m - 6))) !=
          (if m - 7 < 7 then r.getLsbD (6 - (m - 7)) else (nextByte r).getLsbD (14 - (m - 7)))) := by decide +kernel
  have mem : m ∈ [7, 8, 9, 10, 11, 12, 13, 14] := by
    simp only [List.mem_cons, List.not_mem_nil, or_false]; omega
  simpa [show ¬ m < 7 by omega] using all r m mem

/-- The register that a byte fixes is its low seven bits (R175). -/
theorem stagesOf_bits (b : Byte) (j : Nat) (h : j < 7) : (stagesOf b).getLsbD j = b.getLsbD j := by
  simp [stagesOf, h]

/-! ### The checker, case by case (R177) -/

/-- HUNTING: a FAILED exchange. -/
theorem LoopTest.judge_hunting_failed {t : LoopTest} (h : t.inSync = false) :
    t.judge none = { t with hits := 0, checker := none } := by
  simp [LoopTest.judge, h]

/-- HUNTING: an echo that the register predicts is a match, and loads the register; the eighth in a row brings IN-SYNC. -/
theorem LoopTest.judge_hunting_match {t : LoopTest} {r : BitVec 7} {b : Byte} (h : t.inSync = false)
    (hr : t.checker = some r) (hb : nextByte r = b) :
    t.judge (some b) =
      if t.hits + 1 < 8 then
        { t with hits := t.hits + 1, checker := if stagesOf b = 0 then none else some (stagesOf b) }
      else
        { t with inSync := true, hits := t.hits + 1, misses := 0, errors := 0,
                 checker := if stagesOf b = 0 then none else some (stagesOf b) } := by
  by_cases h8 : t.hits + 1 < 8
  · have : ¬ 7 ≤ t.hits := by omega
    simp [LoopTest.judge, h, hr, hb, h8, this]
  · have : 7 ≤ t.hits := by omega
    simp [LoopTest.judge, h, hr, hb, h8, this]

/-- HUNTING: any other echo loads the register and ends the run of matches. -/
theorem LoopTest.judge_hunting_other {t : LoopTest} {b : Byte} (h : t.inSync = false)
    (hb : ∀ r, t.checker = some r → nextByte r ≠ b) :
    t.judge (some b) = { t with hits := 0, checker := if stagesOf b = 0 then none else some (stagesOf b) } := by
  have : (t.checker.any fun r => nextByte r == b) = false := by
    cases hc : t.checker with
    | none => rfl
    | some r => simpa using hb r hc
  simp [LoopTest.judge, h, this]

/-- IN-SYNC: an echo equal to the register's next byte ends the run of mismatches. -/
theorem LoopTest.judge_sync_match {t : LoopTest} {r : BitVec 7} (h : t.inSync = true) (hr : t.checker = some r) :
    t.judge (some (nextByte r)) = { t with misses := 0, checker := some (stagesOf (nextByte r)) } := by
  simp [LoopTest.judge, h, hr]

/-- IN-SYNC: any other end is a mismatch and counts an error; the eighth in a row loses sync. What the run of mismatches
shows then is log 47. -/
theorem LoopTest.judge_sync_miss {t : LoopTest} {r : BitVec 7} {echo : Option Byte} (h : t.inSync = true)
    (hr : t.checker = some r) (he : echo ≠ some (nextByte r)) :
    t.judge echo =
      if t.misses + 1 < 8 then
        { t with misses := t.misses + 1, errors := min 65535 (t.errors + 1), checker := some (stagesOf (nextByte r)) }
      else { t with inSync := false, checker := none, hits := 0, misses := t.misses + 1, errors := 65535 } := by
  by_cases h8 : t.misses + 1 < 8
  · have : ¬ 7 ≤ t.misses := by omega
    simp [LoopTest.judge, h, hr, he, h8, this, bump, Config.count16]
  · have : 7 ≤ t.misses := by omega
    simp [LoopTest.judge, h, hr, he, h8, this, Config.count16]

/-! ### What the checker leaves alone, and the end of a TEST exchange (R176 to R178) -/

/-- The checker changes its own five fields and no other. -/
theorem LoopTest.judge_keeps (e : Option Byte) (k : LoopTest) :
    ∃ i c h m n, k.judge e = { k with inSync := i, checker := c, hits := h, misses := m, errors := n } := by
  unfold LoopTest.judge
  by_cases h1 : k.inSync = true
  · simp only [h1, if_true]
    split
    · exact ⟨_, _, _, _, _, rfl⟩
    · split <;> exact ⟨_, _, _, _, _, rfl⟩
  · simp only [h1, Bool.false_eq_true, if_false]
    cases e with
    | none => exact ⟨_, _, _, _, _, rfl⟩
    | some b =>
      dsimp only
      generalize (if (k.checker.any fun r => nextByte r == b) = true then k.hits + 1 else 0) = h
      by_cases h8 : h ≥ 8
      · rw [if_pos h8]; exact ⟨_, _, _, _, _, rfl⟩
      · rw [if_neg h8]; exact ⟨_, _, _, _, _, rfl⟩

/-- The checker does not look at the sequence that is sent. -/
theorem LoopTest.judge_moved (e : Option Byte) (k : LoopTest) (p : Nat) (r : BitVec 7) :
   ({ k with position := p, sender := r } : LoopTest).judge e = { k.judge e with position := p, sender := r } := by
  unfold LoopTest.judge
  by_cases h1 : k.inSync = true
  · simp only [h1, if_true]
    by_cases h2 : e = some (nextByte (k.checker.getD 0))
    · simp only [h2, if_true]
    · simp only [h2, if_false]
      by_cases h3 : k.misses + 1 ≥ 8 <;> simp only [h3, if_true, if_false]
  · simp only [h1, Bool.false_eq_true, if_false]
    cases e with
    | none => rfl
    | some b =>
      dsimp only
      by_cases h3 : (if (k.checker.any fun r => nextByte r == b) = true then k.hits + 1 else 0) ≥ 8 <;> simp [h3]

/-- The end of a TEST exchange of the running test: the checker judges, the sequence advances, and the exchange counts in
the window or ends it; nothing but the test and the notices changes. -/
theorem testEnded_eq (echo : Option Byte) (s : State) (k : LoopTest) (hk : s.loopTest = some k) (hc : k.cause = none)
    (hw : k.inWindow + 1 ≤ k.window) :
    let full := k.inWindow + 1 = k.window
   let seen := k.judge echo
   let moved := { seen with position := (k.position + 1) % 127, sender := stagesOf (nextByte k.sender) }
   (testEnded echo s).loopTest = some (if full then
            { moved with
              inWindow := 0, result := some (if seen.inSync then BitVec.ofNat 8 (compress seen.errors) else 0xFF#8)
              windows := min 65535 (k.windows + 1), errors := if seen.inSync then 0 else 65535 }
          else { moved with inWindow := k.inWindow + 1 }) ∧
    { testEnded echo s with loopTest := s.loopTest, ports := s.ports } = s := by
  have hr : runningTest s = some k := by simp [runningTest, hk, hc]
  obtain ⟨_, _, _, _, _, keep⟩ := LoopTest.judge_keeps echo k
  have jw : (k.judge echo).window = k.window := by rw [keep]
  have ji : (k.judge echo).inWindow = k.inWindow := by rw [keep]
  have js : (k.judge echo).windows = k.windows := by rw [keep]
  simp only [testEnded, hr, LoopTest.judge_moved]
  refine ⟨?_, ?_⟩
  · by_cases f : k.inWindow + 1 = k.window
    · have : k.window ≤ (k.judge echo).inWindow + 1 := by omega
      rw [if_pos (by simpa [jw] using this), if_pos f]
      simp only [windowEnd, offer, forEach, List.foldl_cons, List.foldl_nil, onPort_loopTest, LoopTest.endWindow, js, bump, Config.count16]
      rfl
    · rw [if_neg (by simp [jw, ji]; omega), if_neg f]
      simp [putTest, ji]
  · split
    · simp only [windowEnd]
      cases hh : (!(k.judge echo).inSync == k.inSync) <;> rfl
    · cases hh : (!(k.judge echo).inSync == k.inSync) <;> rfl

end Sys2Proof.Machine
end

