-- ==== Sys2Proof/Laws/Notices.lean ====
section
/-! SUPPORT. What offering notices makes of a port's queue (R192, R193), one notice or a run of them, and what the
transmitter of a port with nothing but notices takes (R190). -/

namespace Sys2Proof.Machine

/-- A port that the offer names is offered the notice, and every other port stays. -/
theorem offer_port (ps : List Port) (nd : ps.Nodup) (n : Notice) (s : State) (p : Port) :
    (offer ps n.type n.values s).port p = if p ∈ ps then (s.port p).offered n else s.port p := by
  induction ps generalizing s with
  | nil => rfl
  | cons q qs ih =>
    obtain ⟨hq, nd⟩ := List.nodup_cons.mp nd
    show (offer qs n.type n.values (onPort q (PortState.offered n) s)).port p = _
    rw [ih nd, onPort_port]
    by_cases h : p = q
    · subst h; simp [hq]
    · simp [h]

/-- Offering changes ports only. -/
theorem offer_rest (ps : List Port) (n : Notice) (s s0 : State) (h : { s with ports := s0.ports } = s0) :
    { offer ps n.type n.values s with ports := s0.ports } = s0 := by
  have := offer_unseen (π := fun s : State => { s with ports := s0.ports }) (fun _ _ => rfl) ps n.type n.values s
  exact (this :).trans h

/-- A port whose filter passes every category takes the first notices of a run that its queue has room for, and notes the
loss of the rest. -/
theorem PortState.offered_all (ns : List Notice) (q : PortState) (hf : q.filter = 0xFF#8)
    (hc : ∀ n ∈ ns, 1 ≤ n.type.category ∧ n.type.category ≤ 8) :
    ns.foldl (fun q n => PortState.offered n q) q =
      { q with
        notices := q.notices ++ ns.take (32 - q.notices.length)
        lost := q.lost || decide (32 < q.notices.length + ns.length ∧ ns ≠ []) } := by
  have bits : ∀ k, k < 8 → (0xFF#8 : BitVec 8).getLsbD k = true := by decide
  induction ns generalizing q with
  | nil => simp
  | cons n ns ih =>
    have here := hc n List.mem_cons_self
    have bit : q.filter.getLsbD (n.type.category - 1) = true := by
      rw [hf]; exact bits _ (by omega)
    have rest : ∀ m ∈ ns, 1 ≤ m.type.category ∧ m.type.category ≤ 8 := fun m hm => hc m (List.mem_cons_of_mem _ hm)
    by_cases h : q.notices.length < 32
    · have e : q.offered n = { q with notices := q.notices ++ [n] } := by
        simp [PortState.offered, bit, h, Config.noticeMax]
      have room : 32 - q.notices.length = (32 - (q.notices.length + (0 + 1))) + 1 := by omega
      rw [List.foldl_cons, e, ih _ (by exact hf) rest]
      simp only [List.length_append, List.length_cons, List.length_nil, List.append_assoc]
      rw [room, List.take_succ_cons]
      congr 1
      cases ns with
      | nil => simp; omega
      | cons m ms => simp; congr 2; apply propext; omega
    · have e : q.offered n = { q with lost := true } := by simp [PortState.offered, bit, h, Config.noticeMax]
      have full : 32 - q.notices.length = 0 := by omega
      rw [List.foldl_cons, e, ih _ (by exact hf) rest]
      simp [full]; right; omega

/-- A run of operations each of which offers one notice, `n x`, to the same ports. -/
theorem forEach_offers (xs : List Nat) (f : Nat → State → State) (n : Nat → Notice) (ps : List Port) (nd : ps.Nodup)
    (s0 : State) (hf : ∀ x (s : State), { s with ports := s0.ports } = s0 → f x s = offer ps (n x).type (n x).values s)
    (s : State) (hs : { s with ports := s0.ports } = s0) :
    { forEach xs f s with ports := s0.ports } = s0 ∧
      ∀ p, (forEach xs f s).port p =
        if p ∈ ps then (xs.map n).foldl (fun q n => PortState.offered n q) (s.port p) else s.port p := by
  induction xs generalizing s with
  | nil => exact ⟨hs, fun p => by simp [forEach]⟩
  | cons x xs ih =>
    have e := hf x s hs
    obtain ⟨h1, h2⟩ := ih (f x s) (by rw [e]; exact offer_rest _ _ _ _ hs)
    refine ⟨h1, fun p => ?_⟩
    show (forEach xs f (f x s)).port p = _
    rw [h2, e, offer_port _ nd]
    split <;> simp

/-- An idle port with nothing but notices to send takes the first of them. -/
theorem settlePorts_notices (s : State) (p : Port) (sending : (s.port p).sending = none) (busy : (s.port p).busy = [])
    (replies : (s.port p).replies = []) (refused : (s.port p).refused = []) (due : (s.port p).rateDue = none) :
    (settlePorts s).port p =
      { s.port p with sending := (s.port p).notices.head?.map .notice, notices := (s.port p).notices.tail } := by
  have key : (settlePorts s).port p = (s.port p).takeNext.applyRate := by cases p <;> rfl
  rw [key]
  generalize s.port p = q at *
  obtain ⟨a, b, c, d, e, f, g, h, i, j, k⟩ := q
  simp only at sending busy replies refused due
  subst sending busy replies refused due
  cases f <;> simp [PortState.takeNext, PortState.applyRate]

end Sys2Proof.Machine
end

