-- ==== Sys2Proof/Laws/Power.lean ====
section
/-! SUPPORT. What the load of the credential store makes of each slot (R84), the notices of a start-up (R207), and what an
end of power leaves of the nonvolatile memory (R83, R203, R206). -/

namespace Sys2Proof.Machine

/-! ### Reads after writes of the store -/

@[simp] theorem Store.putCell_entry (t : Store) (i j : Nat) (v : Cell) : (t.putCell i v).entry j = t.entry j := rfl
@[simp] theorem Store.putEntry_cell (t : Store) (i j : Nat) (v : IndexEntry) : (t.putEntry i v).cell j = t.cell j := rfl
@[simp] theorem Store.putCell_corrected (t : Store) (i : Nat) (v : Cell) : (t.putCell i v).corrected = t.corrected := rfl
@[simp] theorem Store.putEntry_corrected (t : Store) (i : Nat) (v : IndexEntry) :
    (t.putEntry i v).corrected = t.corrected := rfl

theorem Store.putCell_cell (t : Store) (i j : Nat) (v : Cell) :
    (t.putCell i v).cell j = if j = i then v else t.cell j := Tab.get_set _ _ _ _ _

theorem Store.putEntry_entry (t : Store) (i j : Nat) (v : IndexEntry) :
    (t.putEntry i v).entry j = if j = i then v else t.entry j := Tab.get_set _ _ _ _ _

/-! ### One slot of the load -/

/-- The entry of unknown identity (R65, R84). -/
def IndexEntry.unknown : IndexEntry := ⟨.damaged, none, none, true⟩

variable {r : LoadReport} {i j : Nat} {t : Store} {cells : Tab Cell}

/-- What the first pass of the load makes of one slot, in one equation for each of its four ways. -/
theorem loadSlot_ways (r : LoadReport) (i : Nat) (t : Store) :
    (loadSpoils t.cells r i = true ∧ loadCorrects t.cells r i = false ∧
      loadSlot r i t = (t.putCell i { t.cell i with marker := true }).putEntry i .unknown ∨
     loadSpoils t.cells r i = true ∧ loadCorrects t.cells r i = false ∧ (t.cell i).marker = true ∧
      loadSlot r i t = t.putEntry i .unknown) ∨
    loadSpoils t.cells r i = false ∧
      let u := { t with
        corrected := if loadCorrects t.cells r i then bump Config.count16 t.corrected else t.corrected }
      ((∃ k, (t.cell i).contents = .record k ∧ loadSlot r i t = u.putEntry i k.entry) ∨
       (t.cell i).contents = .empty ∧ loadSlot r i t = u) := by
  have cell : Tab.get Cell.fresh t.cells i = t.cell i := rfl
  have same : ({ t with corrected := bump Config.count16 t.corrected } : Store).cell i = t.cell i := rfl
  unfold loadSpoils loadCorrects
  rw [cell]
  cases hm : (t.cell i).marker with
  | true => exact .inl (.inr (by simp [loadSlot, hm, IndexEntry.unknown]))
  | false =>
    cases hk : (t.cell i).contents <;> cases hc : Tab.get ReadCheck.clean r.checks i <;>
      simp [loadSlot, hm, hk, hc, Store.found, LoadReport.check, IndexEntry.unknown, same]

/-- The cells after the first pass over one slot. -/
theorem loadSlot_cell (r : LoadReport) (i j : Nat) (t : Store) :
    (loadSlot r i t).cell j =
      if j = i ∧ loadSpoils t.cells r i = true then { t.cell i with marker := true } else t.cell j := by
  rcases loadSlot_ways r i t with (⟨hs, -, e⟩ | ⟨hs, -, hm, e⟩) | ⟨hs, ⟨k, -, e⟩ | ⟨-, e⟩⟩
  · by_cases h : j = i <;> simp [e, hs, h, Store.putCell_cell]
  · by_cases h : j = i
    · subst h; simp only [e, hs, Store.putEntry_cell, and_self, if_true]; rw [← hm]
    · simp [e, h]
  all_goals simp only [e, hs, Bool.false_eq_true, and_false, if_false]; rfl

/-- The entries after the first pass over one slot. -/
theorem loadSlot_entry (r : LoadReport) (i j : Nat) (t : Store) :
    (loadSlot r i t).entry j =
      if j = i then
        if loadSpoils t.cells r i = true then .unknown
        else match (t.cell i).contents with
          | .record k => k.entry
          | _ => t.entry i
      else t.entry j := by
  rcases loadSlot_ways r i t with (⟨hs, -, e⟩ | ⟨hs, -, hm, e⟩) | ⟨hs, ⟨k, hk, e⟩ | ⟨hk, e⟩⟩
  · simp [e, hs, Store.putEntry_entry]
  · simp [e, hs, Store.putEntry_entry]
  · simp only [e, Store.putEntry_entry, hs, hk]; rfl
  · by_cases h : j = i
    · subst h; simp only [e, hs, hk]; rfl
    · simp only [e, h]; rfl

/-- The corrected count after the first pass over one slot. -/
theorem loadSlot_corrected (r : LoadReport) (i : Nat) (t : Store) :
    (loadSlot r i t).corrected = if loadCorrects t.cells r i then bump Config.count16 t.corrected else t.corrected := by
  rcases loadSlot_ways r i t with (⟨-, hc, e⟩ | ⟨-, hc, -, e⟩) | ⟨-, ⟨k, -, e⟩ | ⟨-, e⟩⟩
  · simp [e, hc]
  · simp [e, hc]
  · simp [e]
  · simp [e]

theorem Store.putEntry_wf (t : Store) (i : Nat) (v : IndexEntry)
    (h : Tab.wf (fun _ => IndexEntry.empty) t.index = true) :
    Tab.wf (fun _ => IndexEntry.empty) (t.putEntry i v).index = true :=
  Tab.wf_set (fun _ => IndexEntry.empty) t.index i v h

/-- The first pass leaves the rest of the store, and the index its canonical form. -/
theorem loadSlot_rest (r : LoadReport) (i : Nat) (t : Store) :
    { loadSlot r i t with cells := t.cells, index := t.index, corrected := t.corrected } = t ∧
      (Tab.wf (fun _ => IndexEntry.empty) t.index = true →
        Tab.wf (fun _ => IndexEntry.empty) (loadSlot r i t).index = true) := by
  rcases loadSlot_ways r i t with (⟨-, -, e⟩ | ⟨-, -, -, e⟩) | ⟨-, ⟨k, -, e⟩ | ⟨-, e⟩⟩ <;> rw [e]
  · exact ⟨rfl, Store.putEntry_wf _ _ _⟩
  · exact ⟨rfl, Store.putEntry_wf _ _ _⟩
  · exact ⟨rfl, Store.putEntry_wf _ _ _⟩
  · exact ⟨rfl, id⟩

/-! ### The first pass over several slots -/

theorem loadSpoils_same {a b : Tab Cell} (h : Tab.get Cell.fresh a i = Tab.get Cell.fresh b i) :
    loadSpoils a r i = loadSpoils b r i := by simp only [loadSpoils, h]

theorem loadCorrects_same {a b : Tab Cell} (h : Tab.get Cell.fresh a i = Tab.get Cell.fresh b i) :
    loadCorrects a r i = loadCorrects b r i := by simp only [loadCorrects, h]

/-- The first pass over the slots of a list takes each by itself. -/
theorem loadSlots_pass (r : LoadReport) (is : List Nat) (nd : is.Nodup) (t : Store) :
    let u := is.foldl (fun t i => loadSlot r i t) t
    (∀ j, u.cell j = if j ∈ is ∧ loadSpoils t.cells r j = true then { t.cell j with marker := true } else t.cell j) ∧
    (∀ j, u.entry j =
      if j ∈ is then
        if loadSpoils t.cells r j = true then .unknown
        else match (t.cell j).contents with
          | .record k => k.entry
          | _ => t.entry j
      else t.entry j) ∧
    (t.corrected ≤ 65535 → u.corrected = min 65535 (t.corrected + is.countP (loadCorrects t.cells r))) ∧
    { u with cells := t.cells, index := t.index, corrected := t.corrected } = t ∧
    (Tab.wf (fun _ => IndexEntry.empty) t.index = true → Tab.wf (fun _ => IndexEntry.empty) u.index = true) := by
  induction is generalizing t with
  | nil => simpa using fun h => (Nat.min_eq_right h).symm
  | cons i is ih =>
    obtain ⟨hi, nd⟩ := List.nodup_cons.mp nd
    obtain ⟨hc, he, hn, hr, hw⟩ := ih nd (loadSlot r i t)
    have cell : ∀ j, j ≠ i → (loadSlot r i t).cell j = t.cell j := fun j h => by simp [loadSlot_cell, h]
    have spoils : ∀ j, j ≠ i → loadSpoils (loadSlot r i t).cells r j = loadSpoils t.cells r j :=
      fun j h => loadSpoils_same (cell j h)
    have not_i : ∀ j, j ∈ is → j ≠ i := fun j h e => hi (e ▸ h)
    refine ⟨fun j => ?_, fun j => ?_, fun h => ?_, ?_, fun h => hw ((loadSlot_rest r i t).2 h)⟩
    · simp only [List.foldl_cons, hc]
      by_cases hj : j = i
      · subst hj; simp [hi, loadSlot_cell]
      · simp [hj, spoils j hj, cell j hj]
    · simp only [List.foldl_cons, he]
      by_cases hj : j = i
      · subst hj; simp [hi, loadSlot_entry]
      · simp [hj, spoils j hj, cell j hj, loadSlot_entry]
    · have count : is.countP (loadCorrects (loadSlot r i t).cells r) = is.countP (loadCorrects t.cells r) :=
        List.countP_congr fun j h => by rw [loadCorrects_same (cell j (not_i j h))]
      have hb := loadSlot_corrected r i t
      simp only [bump, Config.count16] at hb
      rw [List.foldl_cons, hn (by rw [hb]; split <;> omega), count, hb, List.countP_cons]
      split <;> omega
    · rw [List.foldl_cons]
      have h1 := (loadSlot_rest r i t).1
      generalize loadSlot r i t = v at hr h1 ⊢
      generalize List.foldl _ v is = u at hr ⊢
      cases u; cases v; cases t
      simp only [Store.mk.injEq] at hr h1 ⊢
      simp_all

/-! ### The second pass -/

/-- A slot that the second pass damages: the first pass read it, and a lower slot that the first pass read holds its
number or its pendant. -/
def Store.repeats (first : Store) (i : Nat) : Bool :=
  decide ((first.entry i).cond = .inUse) && first.index.any fun x => decide (x.1 < i) && decide (x.2.cond = .inUse) &&
    (x.2.number == (first.entry i).number || (x.2.pendant == (first.entry i).pendant && !(x.2.pendant == some 0)))

theorem loadDuplicate_ways (first : Store) (i : Nat) (t : Store) :
    loadDuplicate first i t =
      if first.repeats i = true then
        (t.putCell i { t.cell i with marker := true }).putEntry i { first.entry i with cond := .damaged }
      else t := rfl

/-- The second pass over the slots of a list takes each by itself. -/
theorem loadDuplicates_pass (first : Store) (is : List Nat) (nd : is.Nodup) (t : Store) :
    let u := is.foldl (fun t i => loadDuplicate first i t) t
    (∀ j, u.cell j = if j ∈ is ∧ first.repeats j = true then { t.cell j with marker := true } else t.cell j) ∧
    (∀ j, u.entry j =
      if j ∈ is ∧ first.repeats j = true then { first.entry j with cond := .damaged } else t.entry j) ∧
    { u with cells := t.cells, index := t.index } = t ∧
    (Tab.wf (fun _ => IndexEntry.empty) t.index = true → Tab.wf (fun _ => IndexEntry.empty) u.index = true) := by
  induction is generalizing t with
  | nil => simp
  | cons i is ih =>
    obtain ⟨hi, nd⟩ := List.nodup_cons.mp nd
    obtain ⟨hc, he, hr, hw⟩ := ih nd (loadDuplicate first i t)
    have e := loadDuplicate_ways first i t
    simp only [List.foldl_cons]
    generalize loadDuplicate first i t = v at *
    generalize List.foldl _ v is = u at *
    by_cases h : first.repeats i = true
    · rw [if_pos h] at e
      subst e
      refine ⟨fun j => ?_, fun j => ?_, ?_, fun w => hw (Store.putEntry_wf _ _ _ w)⟩
      · rw [hc, Store.putEntry_cell, Store.putCell_cell]
        by_cases hj : j = i
        · subst hj; simp [hi, h]
        · simp [hj]
      · rw [he, Store.putEntry_entry, Store.putCell_entry]
        by_cases hj : j = i
        · subst hj; simp [hi, h]
        · simp [hj]
      · cases u; cases t
        simp only [Store.putCell, Store.putEntry, Store.mk.injEq] at hr ⊢
        simp_all
    · rw [if_neg h] at e
      subst e
      refine ⟨fun j => ?_, fun j => ?_, hr, hw⟩
      · rw [hc]
        by_cases hj : j = i
        · subst hj; simp [h]
        · simp [hj]
      · rw [he]
        by_cases hj : j = i
        · subst hj; simp [h]
        · simp [hj]

/-! ### The load (R84) -/

/-- The slots of the load are those of the store that a cell or a check is listed for, each once. -/
theorem loadSlots_mem (cells : Tab Cell) (r : LoadReport) (i : Nat) :
    i ∈ loadSlots cells r ↔ i < 512 ∧ ((cells.any fun e => e.1 == i) = true ∨ (r.checks.any fun e => e.1 == i) = true) := by
  unfold loadSlots
  split
  · rename_i h
    simp only [Bool.and_eq_true, List.isEmpty_iff] at h
    simp [h.1, h.2]
  · simp [Config.storeSlots]

theorem loadSlots_nodup (cells : Tab Cell) (r : LoadReport) : (loadSlots cells r).Nodup := by
  unfold loadSlots
  split
  · exact List.nodup_nil
  · exact List.nodup_range.sublist List.filter_sublist

/-- Of a slot that the load does not go through nothing is known but that it is empty and clean. -/
theorem loadSlots_absent {cells : Tab Cell} {r : LoadReport} {i : Nat} (hi : i ≤ 511) (h : i ∉ loadSlots cells r) :
    Tab.get Cell.fresh cells i = Cell.fresh ∧ Tab.get ReadCheck.clean r.checks i = .clean := by
  rw [loadSlots_mem] at h
  have : ¬ ((cells.any fun e => e.1 == i) = true ∨ (r.checks.any fun e => e.1 == i) = true) :=
    fun o => h ⟨by omega, o⟩
  rw [not_or, Bool.not_eq_true, Bool.not_eq_true] at this
  exact ⟨Tab.get_absent _ _ _ this.1, Tab.get_absent _ _ _ this.2⟩

/-- The store after the first pass. -/
def firstPass (cells : Tab Cell) (r : LoadReport) (interval : Nat) : Store :=
  (loadSlots cells r).foldl (fun t i => loadSlot r i t) (Store.fresh cells interval)

/-- The entry of a slot after the first pass. -/
theorem firstPass_entry (cells : Tab Cell) (r : LoadReport) (interval : Nat) {i : Nat} (hi : i ≤ 511) :
    (firstPass cells r interval).entry i =
      if loadSpoils cells r i = true then .unknown
      else match (Tab.get Cell.fresh cells i).contents with
        | .record k => k.entry
        | _ => .empty := by
  obtain ⟨-, he, -⟩ := loadSlots_pass r _ (loadSlots_nodup cells r) (Store.fresh cells interval)
  have := he i
  by_cases h : i ∈ loadSlots cells r
  · rw [if_pos h] at this; exact this
  · obtain ⟨h1, h2⟩ := loadSlots_absent hi h
    rw [if_neg h] at this
    refine this.trans ?_
    simp only [loadSpoils, h1, h2]
    rfl

/-- An entry of the first pass is in use exactly where the slot was read, and shows what was read. -/
theorem firstPass_inUse (cells : Tab Cell) (r : LoadReport) (interval : Nat) {i : Nat} (hi : i ≤ 511) :
    (((firstPass cells r interval).entry i).cond = .inUse →
        ∃ c, loadReads cells r i c ∧ (firstPass cells r interval).entry i = c.entry) ∧
      ∀ c, loadReads cells r i c → (firstPass cells r interval).entry i = c.entry := by
  rw [firstPass_entry cells r interval hi]
  unfold loadReads
  cases hs : loadSpoils cells r i with
  | true => exact ⟨fun h => (by cases h), fun c h => (by cases h.1)⟩
  | false =>
    cases hk : (Tab.get Cell.fresh cells i).contents with
    | record c =>
      exact ⟨fun _ => ⟨c, ⟨rfl, rfl⟩, rfl⟩, fun k h => by rw [Contents.record.inj h.2]; rfl⟩
    | empty => exact ⟨fun h => (by cases h), fun c h => (by cases h.2)⟩
    | unreadable => exact ⟨fun h => (by cases h), fun c h => (by cases h.2)⟩

theorem firstPass_index (cells : Tab Cell) (r : LoadReport) (interval : Nat) :
    Tab.wf (fun _ => IndexEntry.empty) (firstPass cells r interval).index = true ∧
      ∀ e ∈ (firstPass cells r interval).index, e.1 < 512 := by
  obtain ⟨-, he, -, -, hw⟩ := loadSlots_pass r _ (loadSlots_nodup cells r) (Store.fresh cells interval)
  have wf := hw rfl
  refine ⟨wf, fun e h => ?_⟩
  obtain ⟨i, v⟩ := e
  simp only [Tab.wf, Bool.and_eq_true] at wf
  have hv : (firstPass cells r interval).entry i = v := Tab.get_of_mem _ wf.1 h
  have hd : v ≠ IndexEntry.empty := by simpa using List.all_eq_true.mp wf.2 (i, v) h
  refine Classical.byContradiction fun hi => ?_
  have := he i
  rw [if_neg fun m => hi ((loadSlots_mem cells r i).mp m).1] at this
  exact hd (hv.symm.trans this)

/-- The slots that the second pass damages are those that repeat a number or a pendant. -/
theorem firstPass_repeats (cells : Tab Cell) (r : LoadReport) (interval : Nat) {i : Nat} (hi : i ≤ 511) :
    (firstPass cells r interval).repeats i = true ↔ ∃ c, loadReads cells r i c ∧ loadRepeats cells r i c := by
  obtain ⟨wf, -⟩ := firstPass_index cells r interval
  simp only [Tab.wf, Bool.and_eq_true] at wf
  unfold Store.repeats
  simp only [Bool.and_eq_true, decide_eq_true_eq, List.any_eq_true, Bool.or_eq_true, beq_iff_eq, Bool.not_eq_true',
    beq_eq_false_iff_ne]
  constructor
  · rintro ⟨hu, ⟨j, v⟩, hm, ⟨hj, hv⟩, ho⟩
    obtain ⟨c, hc, e⟩ := (firstPass_inUse cells r interval hi).1 hu
    have ej : (firstPass cells r interval).entry j = v := Tab.get_of_mem _ wf.1 hm
    simp only at hj hv ho
    rw [← ej] at hv ho
    obtain ⟨k, hk, f⟩ := (firstPass_inUse cells r interval (by omega : j ≤ 511)).1 hv
    rw [e, f] at ho
    refine ⟨c, hc, j, k, hj, hk, ?_⟩
    simp only [Credential.entry, Option.some.injEq] at ho
    exact ho.imp id fun h => ⟨h.1, fun z => h.2 (congrArg some (h.1.trans z))⟩
  · rintro ⟨c, hc, j, k, hj, hk, ho⟩
    have e := (firstPass_inUse cells r interval hi).2 c hc
    have f := (firstPass_inUse cells r interval (by omega : j ≤ 511)).2 k hk
    have ne : Tab.get IndexEntry.empty (firstPass cells r interval).index j ≠ IndexEntry.empty := by
      intro z
      have : IndexEntry.empty = k.entry := z.symm.trans f
      cases this
    have hm := Tab.mem_of_get IndexEntry.empty (firstPass cells r interval).index j ne
    have f' : Tab.get IndexEntry.empty (firstPass cells r interval).index j = k.entry := f
    rw [f'] at hm
    refine ⟨by rw [e]; rfl, (j, k.entry), hm, ⟨hj, rfl⟩, ?_⟩
    rw [e]
    simp only [Credential.entry, Option.some.injEq]
    exact ho.imp id fun h => ⟨h.1, fun z => h.2 (h.1.symm.trans (Option.some.inj z))⟩

/-- What the load makes of each slot and of its entry (R84). -/
theorem loadStore_slot (cells : Tab Cell) (r : LoadReport) (interval : Nat) {i : Nat} (hi : i ≤ 511) :
    let u := loadStore cells r interval
    let old := Tab.get Cell.fresh cells i
    (loadSpoils cells r i = true → u.entry i = .unknown ∧ u.cell i = { old with marker := true }) ∧
    (loadSpoils cells r i = false → old.contents = .empty → u.entry i = .empty ∧ u.cell i = old) ∧
    ∀ c, loadReads cells r i c →
      (loadRepeats cells r i c → u.entry i = { c.entry with cond := .damaged } ∧ u.cell i = { old with marker := true }) ∧
      (¬ loadRepeats cells r i c → u.entry i = c.entry ∧ u.cell i = old) := by
  obtain ⟨hc, -⟩ := loadSlots_pass r _ (loadSlots_nodup cells r) (Store.fresh cells interval)
  obtain ⟨dc, de, -⟩ := loadDuplicates_pass (firstPass cells r interval) _ (loadSlots_nodup cells r)
    (firstPass cells r interval)
  have cell1 : (firstPass cells r interval).cell i =
      if i ∈ loadSlots cells r ∧ loadSpoils cells r i = true then { Tab.get Cell.fresh cells i with marker := true }
      else Tab.get Cell.fresh cells i := hc i
  have hE : (loadStore cells r interval).entry i = _ := de i
  have hC : (loadStore cells r interval).cell i = _ := dc i
  have rep := firstPass_repeats cells r interval hi
  have ent := firstPass_entry cells r interval hi
  have here : ∀ c, loadReads cells r i c → i ∈ loadSlots cells r := by
    intro c h
    refine Classical.byContradiction fun n => ?_
    obtain ⟨z, -⟩ := loadSlots_absent hi n
    have := h.2
    rw [z] at this
    cases this
  refine ⟨fun hs => ?_, fun hs hk => ?_, fun c hr => ⟨fun hd => ?_, fun hd => ?_⟩⟩
  · have no : ¬ (firstPass cells r interval).repeats i = true := fun h => by
      obtain ⟨c, hr, -⟩ := rep.mp h
      have := hr.1
      rw [hs] at this
      cases this
    have there : i ∈ loadSlots cells r := by
      refine Classical.byContradiction fun n => ?_
      obtain ⟨z, k⟩ := loadSlots_absent hi n
      have : loadSpoils cells r i = false := by unfold loadSpoils; rw [z, k]; rfl
      rw [this] at hs
      cases hs
    refine ⟨?_, ?_⟩
    · rw [hE, if_neg (fun h => no h.2), ent, if_pos hs]
    · rw [hC, if_neg (fun h => no h.2), cell1, if_pos ⟨there, hs⟩]
  · have no : ¬ (firstPass cells r interval).repeats i = true := fun h => by
      obtain ⟨c, hr, -⟩ := rep.mp h
      have := hr.2
      rw [hk] at this
      cases this
    refine ⟨?_, ?_⟩
    · rw [hE, if_neg (fun h => no h.2), ent, hs, hk]; rfl
    · rw [hC, if_neg (fun h => no h.2), cell1, if_neg (fun h => by rw [hs] at h; cases h.2)]
  · have yes : i ∈ loadSlots cells r ∧ (firstPass cells r interval).repeats i = true := ⟨here c hr, rep.mpr ⟨c, hr, hd⟩⟩
    refine ⟨?_, ?_⟩
    · rw [hE, if_pos yes, (firstPass_inUse cells r interval hi).2 c hr]
    · rw [hC, if_pos yes, cell1, if_neg (fun h => by rw [hr.1] at h; cases h.2)]
  · have no : ¬ (firstPass cells r interval).repeats i = true := fun h => by
      obtain ⟨k, hk, hd'⟩ := rep.mp h
      have : k = c := Contents.record.inj (hk.2.symm.trans hr.2)
      exact hd (this ▸ hd')
    refine ⟨?_, ?_⟩
    · rw [hE, if_neg (fun h => no h.2), (firstPass_inUse cells r interval hi).2 c hr]
    · rw [hC, if_neg (fun h => no h.2), cell1, if_neg (fun h => by rw [hr.1] at h; cases h.2)]

/-- What the load makes of the rest of the store: the corrected count counts the single errors, nothing waits, and the
scrubber's interval runs (R82, R84). -/
theorem loadStore_rest (cells : Tab Cell) (r : LoadReport) (interval : Nat) :
    let u := loadStore cells r interval
    { u with cells, index := [], corrected := 0 } = Store.fresh cells interval ∧
      u.corrected = (List.range 512).countP (loadCorrects cells r) := by
  obtain ⟨-, -, hn, hr, -⟩ := loadSlots_pass r _ (loadSlots_nodup cells r) (Store.fresh cells interval)
  obtain ⟨-, -, dr, -⟩ := loadDuplicates_pass (firstPass cells r interval) _ (loadSlots_nodup cells r)
    (firstPass cells r interval)
  have dr' : { loadStore cells r interval with
    cells := (firstPass cells r interval).cells, index := (firstPass cells r interval).index } = firstPass cells r interval := dr
  have hr' : { firstPass cells r interval with cells, index := [], corrected := 0 } = Store.fresh cells interval := hr
  have corrected : (loadStore cells r interval).corrected = (firstPass cells r interval).corrected :=
    (congrArg Store.corrected dr' :)
  refine ⟨?_, ?_⟩
  · rw [← hr', ← dr']
  · rw [corrected]
    refine (hn (Nat.zero_le _)).trans ?_
    have count : (loadSlots cells r).countP (loadCorrects cells r) = (List.range 512).countP (loadCorrects cells r) := by
      rw [List.countP_eq_length_filter, List.countP_eq_length_filter]
      refine List.Perm.length_eq ((List.perm_ext_iff_of_nodup ?_ ?_).mpr fun i => ?_)
      · exact (loadSlots_nodup cells r).sublist List.filter_sublist
      · exact List.nodup_range.sublist List.filter_sublist
      · simp only [List.mem_filter, List.mem_range]
        refine ⟨fun h => ⟨((loadSlots_mem cells r i).mp h.1).1, h.2⟩, fun h => ⟨?_, h.2⟩⟩
        refine Classical.byContradiction fun n => ?_
        obtain ⟨-, k⟩ := loadSlots_absent (Nat.le_of_lt_succ h.1) n
        have := h.2
        simp [loadCorrects, k] at this
    have le : (List.range 512).countP (loadCorrects cells r) ≤ 512 := by
      simpa using List.countP_le_length (p := loadCorrects cells r) (l := List.range 512)
    show min 65535 (0 + _) = _
    have : loadCorrects (Store.fresh cells interval).cells r = loadCorrects cells r := rfl
    rw [this, count]
    omega

/-- The slots that the load leaves as DAMAGED, in slot order. -/
theorem loadStore_damagedSlots (cells : Tab Cell) (r : LoadReport) (interval : Nat) :
    (loadStore cells r interval).damagedSlots =
      (List.range 512).filter fun i => decide (((loadStore cells r interval).entry i).cond = .damaged) := by
  obtain ⟨wf, bound⟩ := firstPass_index cells r interval
  obtain ⟨-, de, -, dw⟩ := loadDuplicates_pass (firstPass cells r interval) _ (loadSlots_nodup cells r)
    (firstPass cells r interval)
  have wf' : Tab.wf (fun _ => IndexEntry.empty) (loadStore cells r interval).index = true := dw wf
  have hE : ∀ i, (loadStore cells r interval).entry i = _ := de
  simp only [Tab.wf, Bool.and_eq_true] at wf wf'
  refine Tab.keys_filter IndexEntry.empty _ 512 (fun e => decide (e.cond = .damaged)) wf'.1 rfl fun e he => ?_
  obtain ⟨i, v⟩ := e
  refine Classical.byContradiction fun hi => ?_
  have hv : (loadStore cells r interval).entry i = v := Tab.get_of_mem _ wf'.1 he
  have hd : v ≠ IndexEntry.empty := by simpa using List.all_eq_true.mp wf'.2 (i, v) he
  rw [hE, if_neg (fun h => hi ((loadSlots_mem cells r i).mp h.1).1)] at hv
  have : Tab.get IndexEntry.empty (firstPass cells r interval).index i ≠ IndexEntry.empty := fun z => hd (hv.symm.trans z)
  have listed := Tab.mem_of_get IndexEntry.empty (firstPass cells r interval).index i this
  have below := bound _ listed
  exact hi below

/-! ### The notices of a start-up (R84, R205 to R207) -/

/-- A start-up offers the Console Port the damaged slots, and the Fire Port and the Console Port the invalid configuration
and the cells that did not match; nothing but the ports changes. -/
theorem startNotices_port (old : Tab SpentCell) (s : State) (ht : s.clock.timeOfWeek = 0)
    (hg : ∀ g, g ≤ 3 → (s.group g).remaining = none ∧ (s.group g).elapsed = none) :
    let damaged := s.store.damagedSlots.map fun i =>
      (⟨.storeDamaged, [.u16 i, .u24 ((s.store.entry i).number.getD 0), .u16 0]⟩ : Notice)
    let invalid := if s.configValid then [] else [(⟨.groupConfigInvalid, [.u16 0]⟩ : Notice)]
    let spent := ((List.range 4).filter fun g => decide (Tab.get SpentCell.mismatch old g = .mismatch)).map fun g =>
      (⟨.groupSpentChanged, [.u8 g, .u16 0, .u8 (s.group g).state.ctorIdx, .u16 0, .u16 0]⟩ : Notice)
    { startNotices old s with ports := s.ports } = s ∧
      ∀ p, (startNotices old s).port p = (match p with
        | .access => []
        | .fire => invalid ++ spent
        | .console => damaged ++ invalid ++ spent).foldl (fun q n => PortState.offered n q) (s.port p) := by
  intro damaged invalid spent
  let slotNotice := fun i => (⟨.storeDamaged, [.u16 i, .u24 ((s.store.entry i).number.getD 0), .u16 0]⟩ : Notice)
  let cellNotice := fun g => (⟨.groupSpentChanged, [.u8 g, .u16 s.clock.timeOfWeek, .u8 (s.group g).state.ctorIdx,
    Val.opt16 (s.group g).remaining, Val.opt16 (s.group g).elapsed] ++ []⟩ : Notice)
  let cells := allGroups.filter fun g => decide (Tab.get SpentCell.mismatch old g = .mismatch)
  obtain ⟨a1, a2⟩ := forEach_offers s.store.damagedSlots damagedNotice slotNotice [.console] (by simp) s
    (fun x u h => by
      have h1 : u.store = s.store := (congrArg State.store h :)
      have h2 : u.clock = s.clock := (congrArg State.clock h :)
      simp [slotNotice, damagedNotice, h1, h2, ht, Val.opt24]) s rfl
  generalize hs1 : forEach s.store.damagedSlots damagedNotice s = s1 at a1 a2
  have v1 : s1.configValid = s.configValid := (congrArg State.configValid a1 :)
  have c1 : s1.clock = s.clock := (congrArg State.clock a1 :)
  obtain ⟨s2, hs2⟩ : ∃ s2, s2 =
      onlyIf (!s1.configValid) (offer groupPorts .groupConfigInvalid [.u16 s1.clock.timeOfWeek]) s1 := ⟨_, rfl⟩
  have b1 : { s2 with ports := s.ports } = s := by
    rw [hs2, onlyIf]; split
    · exact offer_rest groupPorts ⟨.groupConfigInvalid, [.u16 s1.clock.timeOfWeek]⟩ s1 s a1
    · exact a1
  have b2 : ∀ p, s2.port p =
      if p ∈ groupPorts then invalid.foldl (fun q n => PortState.offered n q) (s1.port p) else s1.port p := by
    intro p
    rw [hs2, onlyIf, v1, c1, ht]
    have := offer_port groupPorts (by simp [groupPorts]) ⟨.groupConfigInvalid, [.u16 0]⟩ s1 p
    cases hv : s.configValid
    · simp only [Bool.not_false, if_true, invalid, hv]; simpa using this
    · simp [invalid, hv]
  obtain ⟨d1, d2⟩ := forEach_offers cells (fun g t => groupNotice g .groupSpentChanged [] t) cellNotice groupPorts
    (by simp [groupPorts]) s
    (fun x u h => by
      have h1 : u.release = s.release := (congrArg State.release h :)
      have h2 : u.clock = s.clock := (congrArg State.clock h :)
      have h3 : u.group x = s.group x := by unfold State.group; rw [h1]
      simp only [cellNotice, groupNotice, h3, h2]) s2 b1
  have sp : cells.map cellNotice = spent := by
    refine List.map_congr_left fun g hgm => ?_
    have : g ≤ 3 := by
      have := (List.mem_filter.mp hgm).1
      simp [allGroups] at this; omega
    obtain ⟨z1, z2⟩ := hg g this
    simp [cellNotice, ht, z1, z2, Val.opt16]
  have whole : startNotices old s = forEach cells (fun g t => groupNotice g .groupSpentChanged [] t) s2 := by
    unfold startNotices
    simp only [hs1, ← hs2, cells]
  rw [whole]
  refine ⟨d1, fun p => ?_⟩
  rw [d2, b2, a2, sp]
  cases p <;> simp [groupPorts, List.foldl_append, damaged, slotNotice]

/-! ### What an end of power leaves (R83, R206) -/

/-- The agent-spent cell of each group as the end of power leaves it. -/
theorem cellsLeft_get (fates : List (Nat × WriteFate)) (s : State) {g : Nat} (hg : g ≤ 3) :
    Tab.get .mismatch (cellsLeft fates s) g =
      (s.spentCell g).left (Tab.get none s.nv.spentWrites g) (Tab.get .old fates g) := by
  have : g = 0 ∨ g = 1 ∨ g = 2 ∨ g = 3 := by omega
  rcases this with rfl | rfl | rfl | rfl <;> simp [cellsLeft, allGroups, Tab.get_set]

/-- The cells of the store as the end of power leaves them. -/
theorem slotsLeft_cell (fate : WriteFate) (s : State) (j : Nat) :
    Tab.get Cell.fresh (slotsLeft fate s) j =
      match slotWritten s, fate with
      | some (i, c), .new => if j = i then c else s.store.cell j
      | some (i, _), .mixed => if j = i then { s.store.cell i with contents := .unreadable } else s.store.cell j
      | _, _ => s.store.cell j := by
  unfold slotsLeft
  cases slotWritten s with
  | none => rfl
  | some e => cases fate <;> simp only [Tab.get_set] <;> rfl

end Sys2Proof.Machine
end

