-- ==== Sys2Proof/Laws/Reset.lean ====
section
/-! SUPPORT. The state after reset is what a power-on makes of a part fresh from manufacture. -/

namespace Sys2Proof.Machine

/-- A part fresh from manufacture, without power: the configuration and the agent-spent cells never written, the
credential slots empty (log 1, log 3). -/
def State.manufactured : State :=
  { State.reset with
    serving := false
    nv := { region := none, spent := [], spentWrites := [] } }

/-- POWER_ON with nothing found in any slot takes the fresh part to the state after reset. -/
theorem powerOn_manufactured : execPowerOn ⟨[]⟩ State.manufactured = .next State.reset := rfl

end Sys2Proof.Machine
end

