-- ==== Sys2Proof/Tests/Slice0.lean ====
section
/-! SUPPORT. The model's own tests: an ill-formed command for each check of WellFormed, single steps held against the
worked sequences and the tables of spec/, and for each statement with premises a state that meets them. -/

namespace Sys2Proof.Tests

open Sys2Proof Sys2Proof.Machine

set_option Elab.async false

/-! ### A small part to test -/

/-- A part in service: zone 1 a strongroom and zone 2 a store of group 0, zone 3 a tracked reading room without group,
zone 4 an untracked corridor, zone 15 a tracked plant room of group 3; door 0 from outside into zone 2 on node 5, door 1
between the zones 2 and 3 on node 6, door 2 the strongroom door from 2 into 1 on node 7, door 31 from 3 into 15 on node
59; detector node 8, station node 9 and pendant receiver 10 in zone 2, station node 60 in zone 15. Schedule 0 covers every
hour of every day. -/
def records : Records :=
  { Records.default with
    zones := [(1, ⟨true, .strongroom, 0, some 0, 4, 20, 5⟩), (2, ⟨true, .store, 0, some 0, 3, 20, 5⟩),
              (3, ⟨true, .reading, 0, none, 8, 0, 1⟩), (4, ⟨false, .circulation, 0, none, 0, 0, 0⟩),
              (15, ⟨true, .plant, 0, some 3, 64, 60, 10⟩)]
    schedules := [(0, ⟨some ⟨0x7F#8, 0, 1440⟩, none, none, none⟩)]
    doors := [(0, ⟨0, 2, .perimeter, 5, .hard, 50, 300, 150, .secure⟩),
              (1, ⟨2, 3, .interior, 6, .hard, 50, 300, 150, .secure⟩),
              (2, ⟨2, 1, .strongroom, 7, .hard, 50, 300, 150, .secure⟩),
              (31, ⟨3, 15, .interior, 59, .soft, 300, 3000, 150, .free⟩)]
    nodes := [(5, ⟨.door, 0, []⟩), (6, ⟨.door, 0, []⟩), (7, ⟨.door, 0, []⟩), (8, ⟨.detector, 0, []⟩),
              (9, ⟨.station, 2, [.abort, .manualRelease, .call, .checkIn]⟩), (10, ⟨.pendant, 2, []⟩),
              (59, ⟨.door, 0, []⟩), (60, ⟨.station, 15, [.none, .call]⟩)]
    groups := [(0, { GroupRec.default 0 with
      b := 300, a := 50, c := 4, detectors := [(128, .x), (129, .y)], warnings := [(144, .sounder), (145, .sign)] })]
    pollList := [5, 6, 7, 8, 9, 10, 59, 60] }

def quietNode : NodeVol := ⟨.online, 0, 0, false, List.replicate 16 .normal, none, none⟩

/-- A credential that opens doors 0 and 1: a member of staff with zones 2 and 3, wearing pendant 77. -/
def card : Credential := ⟨1000, .staff, 0x000C#16, .none, 77, true, false, false⟩

def idlePorts : Ports := ⟨PortState.initial, PortState.initial, PortState.initial, true, 0, []⟩

def inHours : ZoneCond := ⟨false, false, false⟩
def idleGroup : GroupVol := ⟨.normal, none, none, false, false, none, none, false⟩
def shutDoor : DoorVol := { DoorVol.initial with contact := .closed }

/-- The part with that configuration, its nodes ONLINE and its doors closed, at Monday 01:40 in normal hours. Person 1000
is in zone 2 (slot 0), person 2000 in zone 3 (slot 1), person 3000 in zone 15 (slot 127); the grants 1 and 16 stand on the
zones 2 and 15. -/
def part : State :=
  { State.reset with
    clock := ⟨100, 5, true, none⟩
    zones := allZones.map fun z => (z, inHours)
    configValid := true
    config := records
    nv := ⟨some records, [(0, .clear), (1, .clear), (2, .clear), (3, .clear)], []⟩
    roster := [(0, { Slot.free with state := .present, credential := 1000, zone := some 2, entered := some 90 }),
               (1, { Slot.free with state := .present, credential := 2000, zone := some 3, entered := some 95 }),
               (127, { Slot.free with state := .present, credential := 3000, zone := some 15, entered := some 0 })]
    doors := [(0, shutDoor), (1, shutDoor), (2, shutDoor), (31, shutDoor)]
    store := { State.reset.store with
      cells := [(3, ⟨false, .record card⟩), (511, ⟨false, .record { card with number := 16777214, pendant := 0 }⟩)]
      index := [(3, card.entry), (511, { card with number := 16777214, pendant := 0 : Credential }.entry)] }
    afterHours := ⟨[(1, ⟨.live, 2, 1000, 200, 4, 0⟩), (16, ⟨.live, 15, 1000, 300, 4, 0⟩)], [], [], false⟩
    release := ⟨[(0, idleGroup), (1, idleGroup), (2, idleGroup), (3, idleGroup)], [], []⟩
    loop := { State.reset.loop with
      nodes := [(5, quietNode), (6, quietNode), (7, quietNode), (8, quietNode), (9, quietNode), (10, quietNode),
                (59, quietNode), (60, quietNode)]
      passDone := true }
    ports := idlePorts }

def console : Head := ⟨.console, 7, true⟩
def panel : Head := ⟨.fire, 9, true⟩
def gate : Head := ⟨.access, 3, true⟩

/-! ### Ill-formed commands, one for each check of WellFormed -/

theorem test_wf_tag : (Instr.readStatus ⟨.access, 256, true⟩).wf = false := by decide
theorem test_wf_byte_operand : (Instr.readZone console 256).wf = false := by decide
theorem test_wf_word_operand : (Instr.readPoint console 65536).wf = false := by decide
theorem test_wf_filter_operand : (Instr.readRoster console 0 256).wf = false := by decide
theorem test_wf_credential_number : (Instr.writeCredential console 0 ⟨16777216, 0, 0, 0, 0, true, false, false⟩).wf = false := by
  decide
theorem test_wf_credential_class : (Instr.writeCredential console 0 ⟨1, 256, 0, 0, 0, true, false, false⟩).wf = false := by decide
theorem test_wf_credential_right : (Instr.writeCredential console 0 ⟨1, 0, 0, 256, 0, true, false, false⟩).wf = false := by decide
theorem test_wf_credential_pendant : (Instr.writeCredential console 0 ⟨1, 0, 0, 0, 65536, true, false, false⟩).wf = false := by
  decide
theorem test_wf_change_number : (Instr.modifyCredential console 0 [.number 16777216]).wf = false := by decide
theorem test_wf_change_class : (Instr.modifyCredential console 0 [.cls 256]).wf = false := by decide
theorem test_wf_change_right : (Instr.modifyCredential console 0 [.right 256]).wf = false := by decide
theorem test_wf_change_pendant : (Instr.modifyCredential console 0 [.pendant 65536]).wf = false := by decide
theorem test_wf_change_defined : (Instr.modifyCredential console 0 [.undefined 7]).wf = false := by decide
theorem test_wf_change_count : (Instr.modifyCredential console 0 (List.replicate 256 (.enabled true))).wf = false := by
  decide +kernel
theorem test_wf_window_bounds : (Instr.setAccessWindow console 65536 0).wf = false := by decide
theorem test_wf_minute : (Instr.setTime console 65536).wf = false := by decide
theorem test_wf_escort : (Instr.grantEscort console 2 16777216 60 1).wf = false := by decide
theorem test_wf_duration : (Instr.grantEscort console 2 1 65536 1).wf = false := by decide
theorem test_wf_zone_record : (Instr.writeConfigurationRecord console 2 (.zone ⟨true, 256, 0, none, 1, 0, 1⟩)).wf = false := by
  decide
theorem test_wf_zone_group : (Instr.writeConfigurationRecord console 2 (.zone ⟨true, 1, 0, some 256, 1, 0, 1⟩)).wf = false := by
  decide
theorem test_wf_schedule_windows : (Instr.writeConfigurationRecord console 0 (.schedule [])).wf = false := by decide
theorem test_wf_window_start :
    (Instr.writeConfigurationRecord console 0 (.schedule (List.replicate 4 ⟨0, 65536, 0⟩))).wf = false := by decide
theorem test_wf_door_record :
    (Instr.writeConfigurationRecord console 0 (.door ⟨0, 1, 2, 0, 0, 65536, 0, 0, 0⟩)).wf = false := by decide
theorem test_wf_node_functions : (Instr.writeConfigurationRecord console 5 (.node ⟨1, 0, []⟩)).wf = false := by decide
theorem test_wf_group_record :
    (Instr.writeConfigurationRecord console 0
      (.group ⟨0, 65536, 0, 1, 900, 100, 150, 100, 50, [], 0, []⟩)).wf = false := by decide
theorem test_wf_group_point :
    (Instr.writeConfigurationRecord console 0
      (.group ⟨0, 300, 0, 1, 900, 100, 150, 100, 50, [⟨65536, 0⟩], 0, []⟩)).wf = false := by decide
theorem test_wf_poll_list : (Instr.writeConfigurationRecord console 0 (.pollList [256])).wf = false := by decide
theorem test_wf_timing : (Instr.writeConfigurationRecord console 0 (.loopTiming ⟨256, 2, 3, 5, 12, 0⟩)).wf = false := by decide
theorem test_wf_part_timers : (Instr.writeConfigurationRecord console 0 (.partTimers 65536 1200)).wf = false := by decide
theorem test_wf_port_rates : (Instr.writeConfigurationRecord console 0 (.portRates ⟨256, 0⟩ ⟨4, 0⟩ ⟨4, 0⟩)).wf = false := by decide
theorem test_wf_window_record : (Instr.writeConfigurationRecord console 0 (.accessWindow 0 65536)).wf = false := by decide
theorem test_wf_undefined_kind : (Instr.writeConfigurationRecord console 0 (.undefined 9)).wf = false := by decide
theorem test_wf_unknown_code : (Instr.unknownRequest console 0x01).wf = false := by decide
theorem test_wf_load_slot : (Instr.powerOn ⟨[(512, .double)]⟩).wf = false := by decide
theorem test_wf_cell_fate : (Instr.powerLoss ⟨.old, [(4, .new)], .old⟩).wf = false := by decide
theorem test_wf_cell_persisted : (Instr.configurationWritePersisted (.cell 4)).wf = false := by decide
theorem test_wf_grant : (Instr.grantExpiry 0).wf = false := by decide
theorem test_wf_slot : (Instr.graceEnd 128).wf = false := by decide
theorem test_wf_door : (Instr.unlockTimeExpiry 32).wf = false := by decide
theorem test_wf_group : (Instr.countdownTick 4).wf = false := by decide
theorem test_wf_alarm : (Instr.escalationTimerExpiry 0).wf = false := by decide
theorem test_wf_readings : (Instr.goodReply (.ready false [] (.presentations []))).wf = false := by decide
theorem test_wf_presentations :
    (Instr.goodReply (.ready false (List.replicate 16 .normal)
      (.presentations (List.replicate 3 ⟨1, .a, false⟩)))).wf = false := by decide
theorem test_wf_reports :
    (Instr.goodReply (.ready false (List.replicate 16 .normal) (.reports (List.replicate 6 1)))).wf = false := by decide

/-! ### Numbers of the spec -/

/-- The published check value of a CRC of R201's polynomial, start value and bit order over the ASCII digits 1 to 9. -/
theorem test_crc_of_digits : crc [0x31#8, 0x32#8, 0x33#8, 0x34#8, 0x35#8, 0x36#8, 0x37#8, 0x38#8, 0x39#8] = 0x29B1#16 := by
  decide +kernel

/-- R178, the table of compressed counts. -/
theorem test_compress_table :
    [0, 15, 16, 37, 1000, 65535].map compress = [0x00, 0x0F, 0x18, 0x29, 0x6F, 0xCF] := by decide

/-- 1.4, worked sequence: at 2527 with the minute timer at 240, Set Time 2547 moves the deadline 2540, phase 0, to 2559,
phase 360. -/
theorem test_deadline_worked :
    Deadline.shift (20 * 600 - 240) ⟨2540, 0, .due⟩ = ⟨2559, 360, .due⟩ := by decide

/-- R175: from seven ones the first six bits are 0, then 1 and 0 follow; the register repeats after 127 steps. -/
theorem test_pattern : nextByte 0x7F#7 = 0x02#8 ∧ shiftStages 127 0x7F#7 = 0x7F#7 := by decide +kernel

/-- 8.9, the table of bit rates. -/
theorem test_divisors :
    [(2, 0), (4, 0), (6, 0), (12, 0), (12, 8), (15, 0), (15, 1)].map (fun (n, k) => rateDivisor ⟨n, k⟩) =
      [32, 64, 96, 192, 200, 240, 255] := by decide

/-- R156, R157: the twelve bits of the character 60h with the mark 1, and what a wrong parity or stop bit makes of them.
-/
theorem test_loop_character :
    let bits := [false, false, false, false, false, false, true, true, false, true, false, true];
    LoopChar.bits ⟨true, 0x60#8⟩ = bits ∧ readChar bits = .ok ⟨true, 0x60#8⟩ ∧
      readChar (bits.set 10 true) = .error .parity ∧ readChar (bits.set 11 false) = .error .framing := by decide

/-- R195: the ten bits of the character A5h on a port's line, and what a wrong stop bit makes of them. -/
theorem test_station_character :
    let bits := [false, true, false, true, false, false, true, false, true, true];
    stationBits 0xA5#8 = bits ∧ readStationChar bits = some 0xA5#8 ∧ readStationChar (bits.set 9 false) = none := by decide

/-- R158, R159, R200: node 5 answers a POLL with its four circuit characters, circuit 1 ACTIVE, and one presentation of
credential 1000 at reader B; a wrong check character fails the byte sum. -/
theorem test_read_reply :
    let cs := fun (check : Byte) =>
      [⟨true, 0x05#8⟩, ⟨false, 0x58#8⟩, ⟨false, 0#8⟩, ⟨false, 0#8⟩, ⟨false, 0#8⟩, ⟨false, 0x04#8⟩, ⟨false, 0x01#8⟩, ⟨false, 0#8⟩,
       ⟨false, 0x03#8⟩, ⟨false, 0xE8#8⟩, (⟨false, check⟩ : LoopChar)];
    readReply .poll 5 (cs 0xB3#8) =
        .good (.ready true ((List.replicate 16 .normal).set 1 .active) (.presentations [⟨1000, .b, false⟩])) ∧
      readReply .poll 5 (cs 0xB4#8) = .fails .byteSum := by decide

/-! ### Single steps -/

/-- The state after a command that has a next state; the state before where it has none. -/
def after (c : Instr) (s : State) : State :=
  match exec c s with
  | .next t => t
  | _ => s

/-- 6.10: group 1 floods zones 6 and 7 with B 300, A 50, C 8, Dmax 900, Rmin 100, Bm 150, S 150, P 100; five people and
one unlocated pendant alarm in them. -/
def flooded : State :=
  let person := fun (i z : Nat) =>
    (i, { Slot.free with state := .present, credential := i + 1, zone := some z, entered := some 0 : Slot })
  { part with
    config := { records with
      zones := [(6, ⟨true, .strongroom, 0, some 1, 9, 0, 1⟩), (7, ⟨true, .store, 0, some 1, 9, 0, 1⟩)]
      doors := [], groups := [(1, ⟨300, 50, 8, 900, 100, 150, 150, 100, [], 1, []⟩)] }
    roster := [person 0 6, person 1 6, person 2 6, person 3 7, person 4 7]
    alarms := ⟨[⟨1, ⟨.pendant, 7, none, some 9, none⟩, none, 0, 1, false, true, true, 0, some 9, some 9⟩], 2, 0, [], false⟩ }

/-- 6.10: the countdown begins with D = 300 + 50 x 6 = 600. -/
theorem test_worked_delay : (after (.confirmFire panel 1) flooded).group 1 =
    ⟨.countdown, some 600, some 0, false, false, none, none, false⟩ := by decide +kernel

def counting (st : GroupState) (rem el : Nat) : State :=
  putGroup 1 ⟨st, some rem, some el, false, st == .held, none, none, false⟩ flooded

/-- 6.10, tick 800: Confirm Zone Clear for zone 7, its flag set, drops n_eff to 4; D - 350 is below the 550 that stand. -/
theorem test_worked_clear :
    (after (.confirmZoneClear console 7) (putZone 7 ⟨false, false, true⟩ (counting .countdown 550 350))).group 1 =
      (counting .countdown 550 350).group 1 := by decide +kernel

/-- 6.10: a hold that ends at 400 leaves 400, and one that ends at 30 is lifted to Rmin. -/
theorem test_worked_floor :
    ((after (.panelResume panel 1) (counting .held 400 200)).group 1).remaining = some 400 ∧
      ((after (.panelResume panel 1) (counting .held 30 200)).group 1).remaining = some 100 := by decide +kernel

/-- R114, R115: the tick that brings remaining to 0, the group having no door, begins the release and drives its pair. -/
theorem test_release :
    ((after (.countdownEnd 1) (counting .countdown 1 899)).group 1).state = .releasing ∧
      (after (.countdownEnd 1) (counting .countdown 1 899)).lineDriven 1 = true := by decide +kernel

/-- Tuesday 17:59, the offices open on weekdays from 7:30 to 18:00. -/
def weekday : State :=
  { part with
    clock := ⟨2519, 599, true, none⟩
    config := { records with schedules := [(0, ⟨some ⟨0x1F#8, 450, 1080⟩, none, none, none⟩)] } }

/-- 1.4: at Tuesday 18:00, minute 2520, no window covers zone 2 and its occupant is carried over to 2540, phase 0. -/
theorem test_evening :
    (after .minuteStep weekday).slot 0 =
      { part.slot 0 with mark := true, deadline := some ⟨2540, 0, .due⟩ } := by decide +kernel

/-- R188, R190: a request on a port with one in flight is answered BUSY at once. -/
theorem test_busy :
    (after (.readZone console 2) (onPort .console (fun q => { q with inFlight := some ⟨1, 8, false, .store⟩ }) part)).ports.console.sending =
      some (.busy 7 0x02) := by decide +kernel

/-- R187, R200, R201: a BUSY reply under tag 7 to Read Zone goes out as A5 04 02 07 02 02 and its CRC. -/
theorem test_frame : ((Frame.busy 7 0x02).bytes.take 6) = [0xA5#8, 0x04#8, 0x02#8, 0x07#8, 0x02#8, 0x02#8] := by
  decide +kernel

/-! ### Witnesses: for each statement with premises, a state and operands that meet them, clause by clause -/

theorem takes_idle {s : State} (h : Head) (code : Nat) (hv : s.serving = true) (hp : s.ports = idlePorts)
    (hr : roleAllows h.port code = true) (hs : h.sized = true) : Takes s h code :=
  ⟨hv, by simp only [State.port, hp]; cases h.port <;> rfl, by simp only [State.port, hp]; cases h.port <;> rfl, hr, hs⟩

theorem settled_idle {s : State} (hp : s.ports = idlePorts) : Settled s := by
  intro p
  simp only [State.port, hp]
  cases p <;> exact ⟨fun _ => ⟨rfl, rfl, rfl, rfl⟩, fun h => nomatch h⟩

/-- A door released for an entry into zone 3, one tick before the end of its unlock time. -/
def openFor (z : Nat) : DoorVol :=
  { shutDoor with state := .released, kind := some .entry, pset := [1000], target := some z, timer := some 1 }

def pairDoor : DoorVol :=
  { shutDoor with state := .pairWait, pair := some ⟨1000, .staff, .a, 1, .none, false⟩, timer := some 1 }

def groupIn (st : GroupState) (rem el : Option Nat) : GroupVol := ⟨st, rem, el, false, false, none, none, false⟩

/-- Door 1 released, group 3 counting down. -/
def busy : State := putDoor 1 (openFor 3) (putGroup 3 (groupIn .countdown (some 300) (some 7)) part)

theorem witness_Step_Takes_The_Front_Command :
    ({ part with pending := [.minuteStep, .storeGrant] } : State).pending = .minuteStep :: [.storeGrant] := rfl

theorem witness_Empty_Queue_Counts_A_Tick :
    busy.pending = [] ∧ busy.serving = true ∧ Tab.wf (fun _ => DoorVol.initial) busy.doors = true ∧
      (busy.group 3).state = .countdown ∧ 2 ≤ (busy.group 3).remaining.getD 0 ∧
      (busy.door 1).state = .released ∧ (busy.door 1).timer = some 1 := by decide +kernel

theorem witness_Part_Without_Power_Does_Nothing :
    ({ part with serving := false } : State).serving = false ∧ ∀ load, Instr.minuteStep ≠ .powerOn load :=
  ⟨rfl, fun _ h => nomatch h⟩

theorem witness_Ports_Stay_At_Rest : ∃ t, Settled part ∧ step part = .next t := ⟨_, settled_idle rfl, rfl⟩

/-- The part with sixteen urgent entries and a full audit log, before a minute step. -/
def full : State :=
  { part with
    pending := [.minuteStep]
    loop := { part.loop with urgent := (List.range 16).map (· + 1) }
    afterHours := { part.afterHours with audit := List.replicate 256 ⟨90, .exit, 2, some 1000, none, none, none⟩ } }

theorem witness_Port_Queues_Stay_Bounded :
    ∃ t, (PortsBounded full ∧ UrgentBounded full ∧ full.afterHours.audit.length ≤ 256 ∧
      ∀ c ∈ full.pending.head?, (∀ h, c ≠ .readAudit h) ∧ (∀ l, c ≠ .powerOn l) ∧ (∀ l, c ≠ .powerLoss l) ∧
        ∀ l, c ≠ .resetAsserted l) ∧ step full = .next t := by
  refine ⟨_, ⟨fun p => by cases p <;> decide, by unfold UrgentBounded; decide +kernel, by decide +kernel, fun c hc => ?_⟩, rfl⟩
  cases hc
  exact ⟨fun h => nofun, fun h => nofun, fun h => nofun, fun h => nofun⟩

/-- Records of the kinds and states that the alarm commands meet: a DURESS record to acknowledge and one to clear, two
PENDANT records, the silence timer of one run out, and a HELD-DOOR record to escalate. -/
def alarmed : State :=
  { part with alarms := ⟨[⟨1, ⟨.duress, 2, some 1000, none, none⟩, none, 5, 1, false, false, false, 2, some 1, none⟩,
      ⟨2, ⟨.duress, 3, some 2000, none, none⟩, none, 5, 1, true, false, false, 2, none, none⟩,
      ⟨3, ⟨.pendant, 2, none, some 77, none⟩, none, 5, 1, false, true, true, 0, some 1, some 0⟩,
      ⟨4, ⟨.pendant, 3, none, some 77, none⟩, none, 5, 1, false, true, true, 0, some 1, some 1⟩,
      ⟨255, ⟨.heldDoor, 3, none, none, some 1⟩, none, 5, 1, false, false, false, 2, some 1, none⟩], 5, 0, [], false⟩ }

theorem alarmed_sound : AlarmsSound alarmed :=
  ⟨rfl, by decide, by decide, by decide, by decide, by decide, by decide, by decide⟩

theorem sound_quiet {s : State} (h : s.alarms = part.alarms) : AlarmsSound s := by
  constructor <;> simp [AlarmLineHonest, lineWanted, h, part, State.reset]

theorem witness_Alarm_Line_Follows_The_Records : ∃ t, AlarmsSound alarmed ∧ step alarmed = .next t := ⟨_, alarmed_sound, rfl⟩

/-- Group 0 RELEASING with its pair driven. -/
def releasing : State :=
  putLine 0 true (putGroup 0 { groupIn .releasing (some 0) (some 300) with pulse := some 1 } part)

theorem records_group (g : Nat) : (records.group g).pair = g ∧ (records.group g).rmin ≤ (records.group g).dmax := by
  simp only [Records.group, records, Tab.get]
  split
  · subst_vars; decide
  · exact ⟨rfl, Nat.le_of_ble_eq_true rfl⟩

theorem records_groupsSound : records.GroupsSound :=
  ⟨fun g k h => by rw [(records_group g).1, (records_group k).1] at h; exact h, fun g _ => (records_group g).1,
    fun g => (records_group g).2⟩

theorem releasing_groupsSound : GroupsSound releasing :=
  ⟨records_groupsSound, fun r h => by cases h; exact records_groupsSound⟩

theorem witness_Lines_Driven_Only_While_Releasing :
    ∃ t, (GroupsSound releasing ∧ LinesHonest releasing) ∧ step releasing = .next t := by
  refine ⟨_, ⟨releasing_groupsSound, fun pair h => ?_⟩, rfl⟩
  have hp : pair = 0 := by
    by_cases h0 : pair = 0
    · exact h0
    · simp [State.lineDriven, releasing, putLine, putGroup, part, State.reset, Tab.set, Tab.put, Tab.get, h0] at h
  subst hp
  exact ⟨0, by decide +kernel⟩

theorem witness_Countdowns_Stay_Sound :
    ∃ t, (GroupsSound releasing ∧ CountdownSound releasing) ∧ step releasing = .next t := by
  refine ⟨_, ⟨releasing_groupsSound, fun g h => ?_⟩, rfl⟩
  have : ∀ k, k ≤ 3 → ((releasing.group k).remaining.isSome = (releasing.group k).state.timed) ∧
      ((releasing.group k).elapsed.isSome = (releasing.group k).state.timed) ∧
      ((releasing.group k).remaining.all fun r => decide (r ≤ (releasing.config.group k).dmax)) = true := by
    decide +kernel
  refine ⟨(this g h).1, (this g h).2.1, fun r hr => ?_⟩
  have h3 := (this g h).2.2
  rw [hr] at h3
  simpa using h3

theorem witness_Countdowns_Stay_Sound_grants : ∃ t, GrantsWithin part ∧ step part = .next t := by
  refine ⟨_, fun g => ?_, rfl⟩
  simp only [State.grant, part, Tab.get]
  repeat' split
  all_goals decide

theorem part_slot (i : Nat) : i = 0 ∨ i = 1 ∨ i = 127 ∨ part.slot i = Slot.free := by
  by_cases h0 : i = 0
  · exact .inl h0
  · by_cases h1 : i = 1
    · exact .inr (.inl h1)
    · by_cases h2 : i = 127
      · exact .inr (.inr (.inl h2))
      · exact .inr (.inr (.inr (by simp [State.slot, part, Tab.get, h0, h1, h2])))

theorem records_tracked (z : Nat) : z = 1 ∨ z = 2 ∨ z = 3 ∨ z = 15 ∨ (records.zone z).tracked = false := by
  simp only [Records.zone, records, Tab.get]
  repeat' split
  all_goals simp_all [ZoneRec.default]

theorem part_rosterSound : RosterSound part where
  table := by decide
  slots i h := by
    rcases part_slot i with rfl | rfl | rfl | h
    · omega
    · omega
    · omega
    · exact h
  fields i := by
    rcases part_slot i with rfl | rfl | rfl | h
    · exact ⟨rfl, rfl, rfl, rfl⟩
    · exact ⟨rfl, rfl, rfl, rfl⟩
    · exact ⟨rfl, rfl, rfl, rfl⟩
    · rw [h]; rfl
  zones i z := by
    rcases part_slot i with rfl | rfl | rfl | h
    · intro h; have : z = 2 := by simpa [State.slot, part, Tab.get, Slot.free, eq_comm] using h
      subst this; decide +kernel
    · intro h; have : z = 3 := by simpa [State.slot, part, Tab.get, Slot.free, eq_comm] using h
      subst this; decide +kernel
    · intro h; have : z = 15 := by simpa [State.slot, part, Tab.get, Slot.free, eq_comm] using h
      subst this; decide +kernel
    · rw [h]; simp [Slot.free]
  holders i j hi hj h := by
    rcases part_slot i with rfl | rfl | rfl | e <;> rcases part_slot j with rfl | rfl | rfl | f <;>
      first | rfl | exact absurd (by rw [e]; rfl) hi | exact absurd (by rw [f]; rfl) hj |
        (exfalso; revert h; decide +kernel)
  capacity z h := by
    rcases records_tracked z with rfl | rfl | rfl | rfl | e
    · decide +kernel
    · decide +kernel
    · decide +kernel
    · decide +kernel
    · exact absurd (show (records.zone z).tracked = true from h) (by rw [e]; decide)

theorem rosterSound_like {s : State} (h : RosterSound part) (hr : s.roster = part.roster) (hc : s.config = part.config) :
    RosterSound s := by
  have hs : ∀ i, s.slot i = part.slot i := fun i => by simp [State.slot, hr]
  have ht : ∀ z, tracked s z = tracked part z := fun z => by simp [tracked, hc]
  have hm : ∀ z, committed s z = committed part z := fun z => by simp [committed, occupancy, ht, hr]
  exact ⟨hr ▸ h.table, fun i => by rw [hs]; exact h.slots i, fun i => by rw [hs]; exact h.fields i,
    fun i z => by rw [hs, ht]; exact h.zones i z, fun i j => by rw [hs, hs]; exact h.holders i j,
    fun z => by rw [ht, hm, hc]; exact h.capacity z⟩

theorem part_zonesSound : ZonesSound part := fun z hz => by
  have h : (records.zone z).tracked = false := by
    rcases records_tracked z with h | h | h | h | h
    · omega
    · omega
    · omega
    · omega
    · exact h
  exact ⟨h, fun r hr => by cases hr; exact h⟩

theorem witness_Countdowns_Stay_Sound_roster :
    ∃ t, (RosterSound part ∧ ZonesSound part ∧ InvalidQuiet part) ∧ step part = .next t :=
  ⟨_, ⟨part_rosterSound, part_zonesSound, fun h => nomatch h⟩, rfl⟩

theorem witness_Numbers_In_Use_Stay_Unique : ∃ t, NumbersUnique part ∧ step part = .next t := by
  have one : ∀ i n, (part.store.entry i).number = some n → (i = 3 ∧ n = 1000) ∨ (i = 511 ∧ n = 16777214) := by
    intro i n h
    by_cases h3 : i = 3
    · subst h3; exact .inl ⟨rfl, (Option.some.inj h).symm⟩
    · by_cases h5 : i = 511
      · subst h5; exact .inr ⟨rfl, (Option.some.inj h).symm⟩
      · simp [Store.entry, part, State.reset, Tab.get, h3, h5, IndexEntry.empty] at h
  refine ⟨_, ⟨fun i j n _ _ hi hj => ?_, fun p i c h => nomatch h⟩, rfl⟩
  have hi := one i n hi
  have hj := one j n hj
  omega

/-- The console with a request in flight and a frame being sent, so many BUSY replies waiting. -/
def inWork (waiting : Nat) : State :=
  onPort .console (fun q => { q with
    inFlight := some ⟨1, 8, false, .store⟩
    busy := List.replicate waiting (1, 8)
    sending := some (.busy 1 8) }) part

theorem settled_inWork (n : Nat) : Settled (inWork n) := by
  intro p
  cases p
  · exact ⟨fun _ => ⟨rfl, rfl, rfl, rfl⟩, fun h => nomatch h⟩
  · exact ⟨fun _ => ⟨rfl, rfl, rfl, rfl⟩, fun h => nomatch h⟩
  · exact ⟨fun h => (nomatch h), fun h => nomatch h⟩

theorem witness_Busy_Port_Answers_Busy :
    requestOf (.readStatus console) = some (console, Code.readStatus) ∧
      ∀ n, n = 3 ∨ n = 4 → (inWork n).serving = true ∧ ((inWork n).port console.port).receive = .hunt ∧ Settled (inWork n) ∧
        ((inWork n).port console.port).inFlight = some ⟨1, 8, false, .store⟩ ∧
        ((inWork n).port console.port).busy.length = n := by
  refine ⟨rfl, fun n _ => ⟨rfl, rfl, settled_inWork n, rfl, ?_⟩⟩
  show (List.replicate n (1, 8)).length = n
  simp

theorem witness_Role_And_Length_Are_Checked_First :
    (requestOf (.lockout console 0) = some (console, Code.lockout) ∧ part.serving = true ∧
      (part.port console.port).receive = .hunt ∧ (part.port console.port).inFlight = none ∧ roleAllows console.port Code.lockout = false) ∧
    (requestOf (.lockout ⟨.fire, 1, false⟩ 0) = some (⟨.fire, 1, false⟩, Code.lockout) ∧
      roleAllows .fire Code.lockout = true) := by decide +kernel

theorem witness_Unknown_Code_Is_Refused :
    part.serving = true ∧ (part.port console.port).receive = .hunt ∧ Settled part ∧
      (part.port console.port).inFlight = none ∧ codeDefined 0x44 = false ∧ codeDefined 0x00 = false ∧
      ((inWork 3).port console.port).receive = .hunt ∧ Settled (inWork 3) ∧ ((inWork 3).port console.port).inFlight ≠ none ∧
      ((inWork 3).port console.port).busy.length < 4 :=
  ⟨rfl, rfl, settled_idle rfl, rfl, by decide, by decide, rfl, settled_inWork 3, by decide +kernel, by decide +kernel⟩

theorem witness_Filter_And_Lost_Flag_Are_The_Ports_Own :
    LinkQuiet part panel.port ∧ Settled part ∧ Takes part panel Code.setNoticeFilter ∧ Takes part panel Code.readStatus :=
  ⟨fun _ => rfl, settled_idle rfl, takes_idle _ _ rfl rfl rfl rfl, takes_idle _ _ rfl rfl rfl rfl⟩

/-- The receiver of the Console Port with so much of a frame. -/
def receiving (r : Receive) : State := onPort .console (fun q => { q with receive := r }) part

theorem settled_receiving (r : Receive) : Settled (receiving r) := by
  intro p
  cases p <;> exact ⟨fun _ => ⟨rfl, rfl, rfl, rfl⟩, fun h => absurd rfl h⟩

/-- A part at rest; a receiver that a byte leaves in HUNT, and one for which it completes the frame of tag 7 to Read
Status; a request and a frame behind a frame half assembled. -/
theorem witness_Frames_Without_A_Request_Leave_Nothing :
    (part.serving = true ∧ Settled part) ∧ Receive.hunt.completes [0x00#8] = false ∧
    Receive.hunt.completes ([0xA5#8, 0x03#8, 0x01#8, 0x07#8, 0x01#8] ++ wordBytes (crc [0x03#8, 0x01#8, 0x07#8, 0x01#8])) = true ∧
    ((receiving .length).serving = true ∧ Settled (receiving .length) ∧
      requestOf (.readStatus console) = some (console, Code.readStatus) ∧
      ((receiving .length).port .console).receive ≠ .hunt) :=
  ⟨⟨rfl, settled_idle rfl⟩, by decide, by decide +kernel, rfl, settled_receiving _, rfl, by decide +kernel⟩

theorem witness_Line_Break_Suppresses_The_Reply : (inWork 3).serving = true ∧ Settled (inWork 3) :=
  ⟨rfl, settled_inWork 3⟩

def queued (f : PortState → PortState) : PortState := (onPort .console f part).port .console

theorem witness_Transmitter_Keeps_Its_Order :
    (onPort .console id part).serving = true ∧
      (queued fun q => { q with busy := [(1, 2)] }).busy = (1, 2) :: [] ∧
      ((queued fun q => { q with replies := [⟨1, .done, 2, []⟩] }).busy = [] ∧
        (queued fun q => { q with replies := [⟨1, .done, 2, []⟩] }).replies = ⟨1, .done, 2, []⟩ :: []) ∧
      ((queued fun q => { q with refused := [⟨1, .done, 2, []⟩] }).replies = [] ∧
        (queued fun q => { q with refused := [⟨1, .done, 2, []⟩] }).refused = ⟨1, .done, 2, []⟩ :: []) ∧
      ((queued fun q => { q with notices := [⟨.linkLost, []⟩] }).refused = [] ∧
        (queued fun q => { q with notices := [⟨.linkLost, []⟩] }).notices = ⟨.linkLost, []⟩ :: []) ∧
      (queued id).notices = [] := by decide +kernel

/-- Group 3 held by the panel alone. -/
def heldByPanel : State := putGroup 3 { groupIn .held (some 30) (some 4) with panelHold := true } part

/-- The same with the Fire Port silent for so many ticks. -/
def silent (ticks : Nat) : State := { heldByPanel with ports := { idlePorts with silence := ticks } }

theorem witness_Fire_Link_Loss_Lapses_Holds :
    ∀ k ∈ [99, 100], (silent k).serving = true ∧ (silent k).ports.linkPresent = true ∧ (silent k).ports.silence = k ∧
      ((silent k).group 3).state = .held ∧ ((silent k).group 3).manual = false ∧ ((silent k).group 3).panelHold = true ∧
      heldAborts (silent k) 3 = [] ∧ ((silent k).group 3).remaining = some 30 := by decide +kernel

/-- R198: a frame taken before the loss has restarted the silence timer, and the link stays PRESENT. -/
theorem test_link_kept :
    (after .fireLinkLost (after (.nonRequestFrame .fire) (silent 100))).ports.linkPresent = true ∧
      (after .fireLinkLost (silent 100)).ports.linkPresent = false := by decide +kernel

theorem witness_Receiver_Accepts_Sent_Frames :
    (Frame.reply ⟨1, .done, 2, List.replicate 246 (.u8 0)⟩).body.length = 250 := by decide +kernel

/-- A REQUEST of Read Status with its CRC, and the same two bytes in the other order. -/
theorem witness_Receiver_Accepts_Sent_Frames_crc :
    (256 * 0xA1 + 0x9A = (crc [0x03#8, 0x01#8, 0x07#8, 0x01#8]).toNat ∧
      ((Receive.check 3 [0x01#8, 0x07#8, 0x01#8] []).take 0xA1#8).1.take 0x9A#8 = (.hunt, some [0x01#8, 0x07#8, 0x01#8])) ∧
    ((Receive.check 3 [0x01#8, 0x07#8, 0x01#8] []).take 0x9A#8).1.take 0xA1#8 = (.hunt, none) := by decide +kernel

theorem witness_Each_Divisor_Has_One_Setting :
    (2 ≤ 15 ∧ rateDivisor ⟨15, 1⟩ = 255) ∧ rateDivisor ⟨2, 0⟩ = 32 := by decide

theorem witness_Read_Zone_Shows_The_Record :
    part.serving = true ∧ (part.port gate.port).receive = .hunt ∧ (part.port gate.port).inFlight = none ∧ gate.sized = true ∧ (1 ≤ 15 ∧ 15 ≤ 15) ∧ 15 < 16 := by
  decide +kernel

/-- A poll of a node of the part, after so many failed attempts. -/
def polling (n : Nat) (fails : Nat) (quiet : Bool) : Exchange :=
  ⟨n, .poll, false, true, fails, quiet, false, false, part.config.timing, [], part.config.node n, true⟩

def inExchange (ex : Exchange) : State := { part with loop := { part.loop with exchange := some ex } }

/-- A test on node 9 whose TEST exchange in flight fills the window. -/
def testing9 : State :=
  { inExchange { polling 9 0 false with command := .test 0x02#8, judged := true } with
    loopTest := some { LoopTest.start 9 16 [0] with inWindow := 15 } }

/-- The part while it polls one of its nodes, and something else of it changed. -/
def polled (n : Nat) (f : State → State) : State := f (inExchange (polling n 0 false))

theorem polled_polled {n : Nat} {f : State → State} (h : (polled n f).serving = true)
    (hl : (polled n f).loop.exchange = some (polling n 0 false)) (hr : (polled n f).config.node n = part.config.node n)
    (hb : ((polled n f).node n).readBy = none) (ho : ((polled n f).node n).sup = .online) (hp : (polled n f).loop.passDone = true) :
    Polled (polled n f) (polling n 0 false) :=
  ⟨h, hl, rfl, rfl, rfl, hr.symm, hb, ho, hp⟩

theorem witness_Reads_Show_The_State :
    (∀ c, c ∈ [Code.readZone, Code.readDoor, Code.readGroup, Code.readRoster, Code.readAlarmQueue, Code.readPoint] →
        Takes part panel c) ∧
      Takes part console Code.readLoopTest ∧ Takes part console Code.readConfigurationRecord ∧
      (nodeType part (975 / 16) ≠ .none ∧ nodeType part (16 / 16) = .none) ∧
      (part.loopTest = none ∧ testing9.loopTest.isSome = true ∧ Takes testing9 console Code.readLoopTest) :=
  ⟨fun c hc => takes_idle _ _ rfl rfl
      ((by decide : ∀ k ∈ [Code.readZone, Code.readDoor, Code.readGroup, Code.readRoster, Code.readAlarmQueue, Code.readPoint],
        roleAllows panel.port k = true) c hc) rfl,
    takes_idle _ _ rfl rfl rfl rfl, takes_idle _ _ rfl rfl rfl rfl, by decide +kernel, rfl, rfl, takes_idle _ _ rfl rfl rfl rfl⟩

theorem witness_Read_Audit_Takes_The_Oldest :
    part.serving = true ∧ (∀ h, h = console ∨ h = panel →
      (part.port h.port).receive = .hunt ∧ (part.port h.port).inFlight = none) ∧ console.port = .console ∧
      console.sized = true ∧ panel.port = .fire :=
  ⟨rfl, fun h hh => by rcases hh with rfl | rfl <;> exact ⟨rfl, rfl⟩, rfl, rfl, rfl⟩

theorem witness_Set_Time_Keeps_What_Is_Left :
    Takes part console Code.setTime ∧ part.clock.timeOfWeek ≤ 10079 ∧ part.clock.minuteTimer ≤ 599 ∧
      ∀ minute, minute = 0 ∨ minute = 10079 → ∀ z, 1 ≤ z → z ≤ 15 →
        afterHoursNow { part with clock := ⟨minute, 0, true, part.clock.closureDay.filter (· == minute / 1440)⟩ } z =
          (part.zone z).afterHours := by
  refine ⟨takes_idle _ _ rfl rfl rfl rfl, by decide, by decide, fun minute hm z h1 h2 => ?_⟩
  rcases hm with rfl | rfl <;> interval_cases z <;> decide +kernel

/-- A time set to 18:00 brings zone 2 into after-hours, its occupant unmarked; with zone 2 after-hours already, one set to
Monday 8:00 brings it into hours. -/
theorem witness_Set_Time_Keeps_What_Is_Left_changes :
    Takes weekday console Code.setTime ∧ weekday.clock.timeOfWeek ≤ 10079 ∧ weekday.clock.minuteTimer ≤ 599 ∧
      weekday.clock.closureDay = none ∧ afterHoursNow { weekday with clock := ⟨2520, 0, true, none⟩ } 2 = true ∧
      (weekday.zone 2).afterHours = false ∧ (weekday.slot 0).zone = some 2 ∧ (weekday.slot 0).mark = false ∧
      Takes (putZone 2 ⟨true, false, false⟩ weekday) console Code.setTime ∧
      afterHoursNow { putZone 2 ⟨true, false, false⟩ weekday with clock := ⟨480, 0, true, none⟩ } 2 = false ∧
      ((putZone 2 ⟨true, false, false⟩ weekday).zone 2).afterHours = true :=
  ⟨takes_idle _ _ rfl rfl rfl rfl, by decide, by decide, rfl, by decide +kernel, rfl, rfl, rfl,
    takes_idle _ _ rfl rfl rfl rfl, by decide +kernel, by decide +kernel⟩

/-- R9, R11: the occupant of zone 2 is carried over at the time set, with the zone's interval from then. -/
theorem test_set_time_transition :
    (after (.setTime console 2520) weekday).slot 0 =
      { part.slot 0 with mark := true, deadline := some ⟨2540, 0, .due⟩ } := by decide +kernel

/-- Sunday 23:59, with the closure-day flag set and zone 2 in hours. -/
def lastMinute : State := { part with clock := ⟨10079, 599, true, some 6⟩ }

theorem witness_Minute_Step_Evaluates_Every_Zone :
    lastMinute.serving = true ∧ lastMinute.clock.timeOfWeek ≤ 10079 ∧ (lastMinute.slot 127).zone = some 15 ∧
      (lastMinute.slot 2).zone = none := by decide +kernel

/-- Grant 1 on zone 2, which ends at that minute step, with so many entrants; person 1000 counts for it. -/
def overdue (count : Nat) : State :=
  putGrant 1 ⟨.live, 2, 1000, 0, 4, count⟩ (putSlot 0 { part.slot 0 with grant := some 1 } lastMinute)

theorem witness_Minute_Step_Evaluates_Every_Zone_grants :
    ∀ n ∈ [0, 1], (overdue n).serving = true ∧ (overdue n).clock.timeOfWeek = 10079 ∧ ((overdue n).grant 1).state = .live ∧
      ((overdue n).grant 1).expiry = 0 ∧ ((overdue n).grant 1).count = n ∧ ((overdue n).grant 1).zone = 2 ∧
      ((overdue n).slot 0).grant = some 1 ∧ ((overdue n).slot 0).zone = some 2 ∧
      (overdue n).alarms.records.length + (List.range 128).countP (fun j => ((overdue n).slot j).grant.isSome) ≤ 32 := by
  decide +kernel

theorem witness_Closure_Day_Is_Set_And_Cleared :
    Takes part console Code.setClosureDay ∧ part.clock.timeKnown = true ∧ part.clock.closureDay = none ∧
      Takes lastMinute console Code.setClosureDay ∧ lastMinute.clock.closureDay.isSome = true ∧
      Takes { part with clock := ⟨0, 0, false, none⟩ } console Code.setClosureDay :=
  ⟨takes_idle _ _ rfl rfl rfl rfl, rfl, rfl, takes_idle _ _ rfl rfl rfl rfl, rfl, takes_idle _ _ rfl rfl rfl rfl⟩

theorem witness_Lockdown_Withdraws_What_Waits :
    Takes part console Code.lockdownZone ∧ Takes part console Code.liftLockdown ∧ (part.zone 15).lockdown = false ∧
      ((putZone 15 { inHours with lockdown := true } part).zone 15).lockdown = true ∧
      Takes (putZone 15 { inHours with lockdown := true } part) console Code.liftLockdown :=
  ⟨takes_idle _ _ rfl rfl rfl rfl, takes_idle _ _ rfl rfl rfl rfl, rfl, by decide +kernel, takes_idle _ _ rfl rfl rfl rfl⟩

theorem takes_console (code : Nat) (hr : roleAllows .console code = true) : Takes part console code :=
  takes_idle _ _ rfl rfl hr rfl

theorem takes_panel (code : Nat) (hr : roleAllows .fire code = true) : Takes part panel code := takes_idle _ _ rfl rfl hr rfl

theorem witness_Corrections_Are_Checked_In_Order :
    Takes part console Code.moveRosterEntry ∧ Takes part console Code.removeRosterEntry ∧
      Takes part console Code.confirmZoneClear :=
  ⟨takes_console _ rfl, takes_console _ rfl, takes_console _ rfl⟩

theorem witness_Corrections_Move_And_Free :
    (Takes part console Code.moveRosterEntry ∧ Takes part console Code.removeRosterEntry ∧
      Takes part console Code.confirmZoneClear) ∧
    (tracked part 15 = true ∧ tracked part 1 = true ∧ (part.slot 127).state = .present ∧ (part.slot 127).zone ≠ some 1 ∧
      part.place 127 = none ∧ committed part 1 + 1 ≤ (part.config.zone 1).capacity) ∧
    (part.slot 0).state = .present :=
  ⟨⟨takes_console _ rfl, takes_console _ rfl, takes_console _ rfl⟩, by decide +kernel, by decide +kernel⟩

/-- An occupant who is marked and counts for grant 16, to be removed. -/
theorem witness_Corrections_Move_And_Free_marked :
    (let s := putSlot 127 { part.slot 127 with mark := true, grant := some 16 } part;
      Takes s console Code.removeRosterEntry ∧ (s.slot 127).state = .present ∧ s.place 127 = none ∧
        (s.slot 127).mark = true ∧ (s.slot 127).zone = some 15 ∧ (s.slot 127).grant = some 16 ∧ (s.grant 16).zone = 15) :=
  ⟨takes_idle _ _ rfl rfl rfl rfl, by decide +kernel⟩

theorem witness_Remote_Release_Opens_For_No_One :
    Takes part console Code.remoteRelease ∧
      (¬ (31 < 31 ∨ (part.config.door 31).node = 0) ∧ (part.config.door 31).cls ≠ .strongroom ∧
        ¬ (doorSealed part 31 ∨ doorLocked part 31) ∧ (part.door 31).state = .secure ∧ (part.door 31).decA = none ∧
        (part.door 31).decB = none ∧ (part.node (part.config.door 31).node).sup = .online) :=
  ⟨takes_console _ rfl, by decide +kernel⟩

theorem witness_Door_Timers_End_Their_States :
    (busy.serving = true ∧ (busy.door 1).state = .released) ∧
    (((putDoor 31 { shutDoor with state := .open, contact := .open } part).door 31).state = .open ∧
      (putDoor 31 { shutDoor with state := .open, contact := .open } part).alarms.records.length < 32) ∧
    (((putDoor 2 pairDoor part).door 2).state = .pairWait ∧
      ((putDoor 2 pairDoor part).door 2).pair = some ⟨1000, .staff, .a, 1, .none, false⟩) := by decide +kernel

/-- The contact of a node reads a fault. -/
def openNode : NodeVol := { quietNode with input := quietNode.input.set 2 .openFault }

/-- The doors 1 and 31 polled: shut and released, shut and SECURE with and without an override, open with a reservation of
person 1000 from zone 2 into zone 3, and FORCED. -/
theorem witness_Door_Timers_End_Their_States_contact :
    (∀ v ∈ [openFor 3, shutDoor], Polled (polled 6 (putDoor 1 v)) (polling 6 0 false) ∧
      nodeType (polled 6 (putDoor 1 v)) 6 = .door ∧ doorOfNode (polled 6 (putDoor 1 v)) 6 = some 1 ∧
      ((polled 6 (putDoor 1 v)).node 6).input.length = 16 ∧ reading (polled 6 (putDoor 1 v)) 6 2 = some .normal ∧
      ((polled 6 (putDoor 1 v)).door 1).contact ≠ .open) ∧
    overrideUnlocks (polled 6 id) 1 = false ∧
    (Polled (polled 6 (putOverride 96 .forceOn)) (polling 6 0 false) ∧
      overrideUnlocks (polled 6 (putOverride 96 .forceOn)) 1 = true) ∧
    ((Polled (polled 59 (putDoor 31 pairDoor)) (polling 59 0 false) ∧
      ((polled 59 (putDoor 31 pairDoor)).door 31).state = .pairWait)) ∧
    (let s := polled 6 fun s => putNode 6 openNode (putDoor 1 { openFor 3 with state := .open, contact := .open }
        (putSlot 0 { s.slot 0 with state := .presentMoving, pendZone := some 3, pendDoor := some 1 } s));
      Polled s (polling 6 0 false) ∧ reading s 6 2 ≠ some .normal ∧ (s.door 1).contact ≠ .closed ∧
        (s.door 1).state = .open ∧ (s.slot 0).pendDoor = some 1 ∧ (s.slot 0).pendZone = some 3 ∧ AlarmsSound s) ∧
    (let s := polled 6 fun s => putNode 6 openNode (putDoor 1 { shutDoor with state := .forced, contact := .open } s);
      Polled s (polling 6 0 false) ∧ (s.door 1).state = .forced ∧ AlarmsSound s) ∧
    (reading (polled 6 id) 6 0 = some .normal ∧ reading (polled 6 id) 6 1 = some .normal) := by
  refine ⟨fun v _ => ⟨polled_polled rfl rfl rfl rfl rfl rfl, rfl, rfl, rfl, rfl, ?_⟩, by decide +kernel,
    ⟨polled_polled rfl rfl rfl rfl rfl rfl, by decide +kernel⟩, ⟨polled_polled rfl rfl rfl rfl rfl rfl, by decide +kernel⟩,
    ⟨polled_polled rfl rfl rfl rfl rfl rfl, by decide +kernel, by decide +kernel, by decide +kernel, by decide +kernel,
      by decide +kernel, sound_quiet rfl⟩,
    ⟨polled_polled rfl rfl rfl rfl rfl rfl, by decide +kernel, sound_quiet rfl⟩, by decide +kernel⟩
  rename_i hv
  rcases List.mem_pair.mp hv with rfl | rfl <;> decide +kernel

/-- Door 1 polled while it is open, its contact about to close: person 1000 goes from zone 2 into a zone or out, grant 1
standing in OVERSTAY on zone 3. -/
def passing (mark afterHours : Bool) (z : Nat) (place : Option Place) : State :=
  polled 6 fun s => putNode 6 openNode (putDoor 1 { openFor 3 with state := .open, contact := .open }
    (putZone 3 { inHours with afterHours } (putPlace 0 place (putGrant 1 ⟨.overstay, 3, 1000, 90, 4, 1⟩
      (putSlot 0 { s.slot 0 with state := .presentMoving, pendZone := some z, pendDoor := some 1, mark } s)))))

/-- The commits of one slot: under the overstayed grant, unmarked without an admission, and marked into hours or out. -/
theorem witness_Door_Timers_End_Their_States_commit :
    ∀ c ∈ [(false, true, 3, some (⟨1, some 1, none, true⟩ : Place)), (false, true, 3, none), (true, false, 3, none),
        (true, true, 0, none)],
      let s := passing c.1 c.2.1 c.2.2.1 c.2.2.2;
      Polled s (polling 6 0 false) ∧ AlarmsSound s ∧ nodeType s 6 = .door ∧ doorOfNode s 6 = some 1 ∧
        (s.node 6).input.length = 16 ∧ reading s 6 2 ≠ some .normal ∧ (s.door 1).contact ≠ .closed ∧
        (s.door 1).state = .open ∧ (s.slot 0).pendDoor = some 1 ∧ (s.slot 0).pendZone = some c.2.2.1 ∧
        (∀ j, j ≤ 127 → (s.slot j).pendDoor = some 1 → j = 0) ∧ (s.slot 0).mark = c.1 ∧ (s.slot 0).zone = some 2 ∧
        (s.zone 3).afterHours = c.2.1 ∧ s.place 0 = c.2.2.2 ∧ (s.grant 1).state = .overstay ∧ s.alarms.records.length < 32 := by
  intro c hc
  simp only [List.mem_cons, List.not_mem_nil, or_false] at hc
  rcases hc with rfl | rfl | rfl | rfl <;>
    exact ⟨polled_polled rfl rfl rfl rfl rfl rfl, sound_quiet rfl, by decide +kernel⟩

/-- R93, R96: that commit under the grant writes the ENTRY and the OVERSTAY record, and raises the alarm. -/
theorem test_overstay_commit :
    let t := after (.goodReply (.ready false quietNode.input (.presentations [])))
      (passing false true 3 (some ⟨1, some 1, none, true⟩));
    t.afterHours.audit.map (·.kind) = [.entry, .overstay] ∧
      t.alarms.records.map (·.key) = [⟨.overstay, 3, some 1000, none, none⟩] ∧ (t.slot 0).grant = some 1 := by decide +kernel

/-- A decision at a side of a door, with its lookup running. -/
def deciding (d : Nat) (side : Side) (c : Nat) (discard : Option Refuse) : State :=
  { putDoor d (shutDoor.setDec side (some ⟨c, false, 3, discard⟩)) part with
    store := { part.store with op := some (.lookup ⟨d, side, c⟩ false) } }

theorem witness_Decisions_Follow_The_Lookup :
    (∀ w ∈ [none, some Refuse.tooLate], (deciding 1 .a 4242 w).serving = true ∧
      (deciding 1 .a 4242 w).store.op = some (.lookup ⟨1, .a, 4242⟩ false) ∧
      ((deciding 1 .a 4242 w).door 1).dec .a = some ⟨4242, false, 3, w⟩ ∧ (deciding 1 .a 4242 w).store.next = none ∧
      ((deciding 1 .a 4242 w).door 1).state = .secure ∧ ((deciding 1 .a 4242 w).door 1).pair = none ∧
      ((deciding 1 .a 4242 w).config.door 1).isEgress .a = false ∧
      ∀ e ∈ (deciding 1 .a 4242 w).store.index, e.2.number ≠ some 4242) ∧
    ((deciding 2 .b 1000 none).config.door 2).isEgress .b = true ∧
    (let s := putDoor 2 (pairDoor.setDec .b (some ⟨1000, false, 3, none⟩)) (deciding 2 .b 1000 none);
      (s.door 2).dec .b = some ⟨1000, false, 3, none⟩ ∧ (s.door 2).state = .pairWait ∧
        (s.door 2).pair = some ⟨1000, .staff, .a, 1, .none, false⟩) := by decide +kernel

/-- A presentation of the card under duress, discarded or not; the person stands in slot 0. -/
theorem witness_Decisions_Follow_The_Lookup_duress :
    ∀ w ∈ [none, some Refuse.doorBusy],
      let s := putDoor 1 (shutDoor.setDec .a (some ⟨1000, true, 3, w⟩)) (deciding 1 .a 1000 w);
      s.serving = true ∧ s.store.op = some (.lookup ⟨1, .a, 1000⟩ false) ∧ (s.door 1).dec .a = some ⟨1000, true, 3, w⟩ ∧
        s.store.index.find? (fun x => x.2.number == some 1000) = some (3, card.entry) ∧ card.entry.cond ≠ .damaged ∧
        (s.store.cell 3).contents = .record card ∧ card.enabled = true ∧ s.alarms.records.length < 32 ∧
        (s.door 1).state = .secure ∧ holder s 1000 = some 0 := by decide +kernel

/-- A presentation at a free reader, one that repeats a first entrant, and one at a released door. -/
theorem witness_Decisions_Follow_The_Lookup_presented :
    (Polled (polled 59 id) (polling 59 0 false) ∧ AlarmsSound (polled 59 id) ∧ nodeType (polled 59 id) 59 = .door ∧
      doorOfNode (polled 59 id) 59 = some 31 ∧ ((polled 59 id).node 59).input.length = 16 ∧
      ((polled 59 id).door 31).state = .secure ∧ ((polled 59 id).door 31).dec .b = none) ∧
    (let s := polled 7 (putDoor 2 pairDoor);
      Polled s (polling 7 0 false) ∧ AlarmsSound s ∧ doorOfNode s 7 = some 2 ∧ (s.door 2).state = .pairWait ∧
        (s.door 2).pair = some ⟨1000, .staff, .a, 1, .none, false⟩) ∧
    (let s := polled 6 (putDoor 1 (openFor 3));
      Polled s (polling 6 0 false) ∧ AlarmsSound s ∧ doorOfNode s 6 = some 1 ∧ (s.door 1).state = .released) :=
  ⟨⟨polled_polled rfl rfl rfl rfl rfl rfl, sound_quiet rfl, by decide +kernel⟩,
    ⟨polled_polled rfl rfl rfl rfl rfl rfl, sound_quiet rfl, by decide +kernel⟩,
    ⟨polled_polled rfl rfl rfl rfl rfl rfl, sound_quiet rfl, by decide +kernel⟩⟩

theorem witness_Entry_Checks_Keep_Their_Order :
    (deciding 1 .a 1000 none).serving = true ∧
      (deciding 1 .a 1000 none).store.op = some (.lookup ⟨1, .a, 1000⟩ false) ∧
      ((deciding 1 .a 1000 none).door 1).dec .a = some ⟨1000, false, 3, none⟩ ∧
      ((deciding 1 .a 1000 none).door 1).state = .secure ∧ ((deciding 1 .a 1000 none).door 1).pair = none ∧
      ((deciding 1 .a 1000 none).config.door 1).cls ≠ .strongroom ∧
      ((deciding 1 .a 1000 none).config.door 1).isEgress .a = false ∧
      (deciding 1 .a 1000 none).store.index.find? (fun x => x.2.number == some 1000) = some (3, card.entry) ∧
      card.entry.cond ≠ .damaged ∧ ((deciding 1 .a 1000 none).store.cell 3).contents = .record card := by decide +kernel

/-- A custodian before the strongroom door 2, whose decision is `age` ticks old, alone or after a first entrant. -/
def before (pair : Option PairRec) (age : Nat) : State :=
  let k : Credential := ⟨2000, .custodian, 0xFFFE#16, .none, 0, true, true, false⟩
  let v := { shutDoor with state := if pair.isSome then .pairWait else .secure, pair, timer := pair.map fun _ => 60 }
  let s := putDoor 2 (v.setDec .a (some ⟨2000, false, age, none⟩)) part
  { s with store := { s.store with cells := [(0, ⟨false, .record k⟩)], index := [(0, k.entry)],
                                   op := some (.lookup ⟨2, .a, 2000⟩ false) } }

def first : PairRec := ⟨1000, .staff, .a, 1, .none, false⟩

theorem witness_Entry_Checks_Keep_Their_Order_strongroom :
    ∀ p ∈ [none, some first], ∀ age ∈ [149, 150], (before p age).serving = true ∧
      (before p age).store.op = some (.lookup ⟨2, .a, 2000⟩ false) ∧
      ((before p age).door 2).dec .a = some ⟨2000, false, age, none⟩ ∧
      ((before p age).config.door 2).cls = .strongroom ∧ ((before p age).config.door 2).isEgress .a = false ∧
      ((before p age).store.index.find? fun x => x.2.number == some 2000) = some (0, (before p age).store.entry 0) ∧
      ((before p age).store.entry 0).cond ≠ .damaged ∧
      (match ((before p age).store.cell 0).contents with
        | .record c => decide (c.number = 2000)
        | _ => false) = true ∧
      ((before p age).door 2).state = (if p.isSome then .pairWait else .secure) ∧ ((before p age).door 2).pair = p ∧
      ((before p age).door 2).windowOver = false := by decide +kernel

/-- R46: a decision as old as the pair window is refused as PAIR-INCOMPLETE, and one a tick younger waits. -/
theorem test_first_entrant :
    ((after (.credentialLookupComplete .clean) (before none 149)).door 2).state = .pairWait ∧
      ((after (.credentialLookupComplete .clean) (before none 150)).door 2).respA = .refused .pairIncomplete := by decide +kernel

/-- R47: the custodian completes the pair. -/
theorem test_second_entrant :
    ((after (.credentialLookupComplete .clean) (before (some first) 3)).door 2).pset = [1000, 2000] := by decide +kernel

/-- That pair before the strongroom in its after-hours, the first entrant holding grant 1 on the zone. -/
def escorted : State :=
  let k : Credential := ⟨2000, .custodian, 0xFFFE#16, .withGrant, 0, true, true, false⟩
  let s := putZone 1 { inHours with afterHours := true } (putGrant 1 ⟨.live, 1, 1000, 200, 4, 0⟩
    (before (some { first with right := .withGrant }) 3))
  let s := putSlot 0 Slot.free s
  { s with store := { s.store with cells := [(0, ⟨false, .record k⟩)] } }

theorem witness_Entry_Checks_Keep_Their_Order_grants :
    (escorted.door 2).pair = some { first with right := .withGrant } ∧ first.credential ≠ 2000 ∧
      keptAfterHours escorted 1 = true ∧
      admitPair escorted 1 1000 .withGrant 2000 .withGrant = some (.under 1, .under 1) := by decide +kernel

/-- R87, R88: both of them take a place of it. -/
theorem test_pair_places : ((after (.credentialLookupComplete .clean) escorted).grant 1).count = 2 := by decide +kernel

/-- The person that the decision admits: all the checks of an entry pass. -/
theorem test_entry_admitted :
    ((after (.credentialLookupComplete .clean) (deciding 1 .a 1000 none)).door 1).state = .released := by decide +kernel

def scrubbing : State := { part with store := { part.store with op := some (.scrub 7) } }

theorem witness_Store_Requests_Wait_Or_Begin :
    storeRequest (.eraseCredential console 511) = some (console, Code.eraseCredential, .erase 511) ∧
      Takes part console Code.eraseCredential ∧ part.store.op = none ∧ part.store.next = none ∧
      Takes scrubbing console Code.eraseCredential ∧ scrubbing.store.op ≠ none :=
  ⟨rfl, takes_console _ rfl, rfl, rfl, takes_idle _ _ rfl rfl rfl rfl, by decide +kernel⟩

theorem witness_Store_Requests_Wait_Or_Begin_refused :
    (∀ code, roleAllows .console code = true → Takes part console code) ∧ 511 < 512 ∧ (16777214 < 16777215 ∧ 4 < 5 ∧ 2 < 3) ∧
      8 < (List.replicate 9 (FieldChange.enabled true)).length ∧ (FieldChange.undefined 8) ∈ [.enabled true, .undefined 8] :=
  ⟨fun code hr => takes_console code hr, by decide⟩

def holding (op : PortOp) : State :=
  onPort .console (fun q => { q with inFlight := some ⟨5, 0x10, false, .store⟩ })
    { part with store := { part.store with op := some (.port .console op) } }

theorem witness_Store_Operations_Write_One_Slot :
    (∀ op ∈ [PortOp.read 3, .write 511 card, .erase 3, .modify 3 [.guarded true]],
      (holding op).serving = true ∧ ((holding op).port .console).inFlight = some ⟨5, 0x10, false, .store⟩ ∧
      (holding op).store.op = some (.port .console op) ∧ (holding op).store.next = none) ∧
    (((holding (.read 3)).store.entry 3).cond ≠ .damaged ∧ ((holding (.read 3)).store.cell 3).contents = .record card) ∧
    (applyChanges [.guarded true] card = some { card with guarded := true } ∧
      (holding (.modify 3 [.guarded true])).store.duplicate 3 { card with guarded := true } = false) := by decide +kernel

/-- Slot 9 EMPTY and slot 10 DAMAGED; and a Modify of slot 3 to the number of slot 511. -/
theorem witness_Store_Operations_Write_One_Slot_refused :
    (let s := fun (i : Nat) => ({ holding (.read i) with store := { (holding (.read i)).store with
        index := (holding (.read i)).store.index ++ [(10, ⟨.damaged, some 5, none, true⟩)] } } : State);
      (s 10).serving = true ∧ ((s 10).port .console).inFlight = some ⟨5, 0x10, false, .store⟩ ∧
        (s 10).store.op = some (.port .console (.read 10)) ∧ (s 10).store.next = none ∧ ((s 10).store.entry 10).cond = .damaged ∧
        ((s 9).store.entry 9).cond ≠ .damaged ∧ ((s 9).store.cell 9).contents = .empty) ∧
    (let s := holding (.modify 3 [.number 16777214]);
      (s.store.cell 3).contents = .record card ∧
        applyChanges [.number 16777214] card = some { card with number := 16777214 } ∧
        s.store.duplicate 3 { card with number := 16777214 } = true) := by decide +kernel

def waitingStore (scr : Scrubber) (c1 : List Lookup) (c2 : List PendantCall) : State :=
  { part with store := { part.store with scrubber := scr, class1 := c1, class2 := c2 } }

theorem witness_Store_Grants_By_Class :
    (scrubbing.serving = true ∧ scrubbing.store.op ≠ none) ∧
    ((waitingStore ⟨511, none, true, 0, false⟩ [⟨1, .a, 5⟩] []).store.op = none ∧
      (waitingStore ⟨511, none, true, 0, false⟩ [⟨1, .a, 5⟩] []).store.class1 = ⟨1, .a, 5⟩ :: []) ∧
    ((waitingStore ⟨511, none, true, 0, false⟩ [] [⟨77, 2⟩]).store.class1 = [] ∧
      (waitingStore ⟨511, none, true, 0, false⟩ [] [⟨77, 2⟩]).store.class2 = ⟨77, 2⟩ :: []) ∧
    ((waitingStore ⟨511, none, true, 20, true⟩ [⟨1, .a, 5⟩] []).store.scrubber.waiting = true ∧
      ((waitingStore ⟨511, none, true, 20, true⟩ [⟨1, .a, 5⟩] []).store.entry 511).cond ≠ .damaged) := by decide +kernel

/-- An operation of each port waits, and then the scrubber alone; the window shuts the Access Port out of slot 3. -/
def waitingPorts (c f a : Option PortOp) : State :=
  onPort .access (fun q => { q with inFlight := some ⟨5, 0x11, false, .store⟩ })
    { part with
      config := { records with windowLow := 4, windowHigh := 511 }
      store := { (waitingStore ⟨511, none, (c.or (f.or a)).isNone, 3, false⟩ [] []).store with
        waitConsole := c, waitFire := f, waitAccess := a } }

theorem witness_Store_Grants_By_Class_ports :
    (∀ w ∈ [(some (PortOp.erase 3), some (.read 3), some (.read 3)), (none, some (.read 3), some (.read 3)),
        (none, none, some (.erase 4)), (none, none, some (.erase 3)), (none, none, none)],
      let s := waitingPorts w.1 w.2.1 w.2.2;
      s.serving = true ∧ s.store.op = none ∧ s.store.scrubber.forced = false ∧ s.store.class1 = [] ∧ s.store.class2 = [] ∧
        s.store.waitConsole = w.1 ∧ s.store.waitFire = w.2.1 ∧ s.store.waitAccess = w.2.2 ∧
        (s.port .access).inFlight = some ⟨5, 0x11, false, .store⟩) ∧
    3 < (waitingPorts none none (some (.erase 3))).config.windowLow ∧
    ((waitingPorts none none (some (.erase 3))).store.setWaiting .access none).next = none ∧
    (waitingPorts none none none).store.scrubber.waiting = true ∧
    ((waitingPorts none none none).store.entry 511).cond ≠ .damaged := by decide +kernel

theorem witness_Scrubber_Walks_The_Slots :
    (scrubbing.serving = true ∧ scrubbing.store.scrubber.interval.isSome = true ∧ scrubbing.store.op ≠ none) ∧
    ((waitingStore ⟨511, some 0, false, 0, false⟩ [] []).store.scrubber.interval.isSome = true ∧
      (waitingStore ⟨511, some 0, false, 0, false⟩ [] []).store.next = none ∧
      ((waitingStore ⟨511, some 0, false, 0, false⟩ [] []).store.entry 511).cond ≠ .damaged) ∧
    ((waitingStore ⟨511, none, true, 19, false⟩ [] []).store.scrubber.waiting = true) ∧
    (scrubbing.store.op = some (.scrub 7) ∧ scrubbing.store.next = none ∧
      (scrubbing.store.cell 7).contents ≠ .unreadable) := by decide +kernel

def hearing (pendant : Nat) : State :=
  { part with store := { part.store with op := some (.pendant ⟨pendant, 2⟩) },
              alarms := { part.alarms with arrivals := [⟨pendant, 2⟩] } }

theorem witness_Pendant_Calls_Become_Alarms :
    ((hearing 99).serving = true ∧ (hearing 99).store.op = some (.pendant ⟨99, 2⟩) ∧
      (∀ e ∈ (hearing 99).store.index, e.2.pendant ≠ some 99) ∧
      alarmKeyed (hearing 99) ⟨.pendant, 2, none, some 99, none⟩ = none ∧ (hearing 99).alarms.records.length < 32) ∧
    ((hearing 77).store.index.find? (fun x => x.2.pendant == some 77) = some (3, card.entry) ∧
      ((hearing 77).store.cell 3).contents = .record card ∧ holder (hearing 77) 1000 = some 0 ∧
      ((hearing 77).slot 0).zone = some 2 ∧
      alarmKeyed (hearing 77) ⟨.pendant, 2, some 1000, some 77, none⟩ = none) := by decide +kernel

/-- A full queue of MISSED-CHECK-IN records, so many of them ACKNOWLEDGED, with an unknown pendant in the lookup. -/
def crowded (acked : Nat) (kind : AlarmKind) : State :=
  { hearing 99 with alarms := ⟨(List.range 32).map fun i =>
      ⟨i + 1, ⟨kind, 15, some (i + 1), none, none⟩, none, 5, 1, decide (i < acked), true, false, 0, none, none⟩,
      33, 0, [⟨99, 2⟩], false⟩ }

theorem crowded_sound (acked : Nat) (h : acked = 0 ∨ acked = 1) (kind : AlarmKind) (hk : kind = .missedCheckIn ∨ kind = .duress) :
    AlarmsSound (crowded acked kind) := by
  rcases h with rfl | rfl <;> rcases hk with rfl | rfl <;> constructor <;>
    (try unfold AlarmLineHonest) <;> decide +kernel

/-- The full queue with nothing ACKNOWLEDGED, with an ACKNOWLEDGED record of higher priority alone, and with one of lower
priority that gives place. -/
theorem witness_Pendant_Calls_Become_Alarms_full :
    (∀ k n, (k = 0 ∨ k = 1) → (n = AlarmKind.missedCheckIn ∨ n = .duress) → (crowded k n).serving = true ∧
      AlarmsSound (crowded k n) ∧ (crowded k n).store.op = some (.pendant ⟨99, 2⟩) ∧
      (∀ e ∈ (crowded k n).store.index, e.2.pendant ≠ some 99) ∧ (crowded k n).alarms.records.length = 32 ∧
      alarmKeyed (crowded k n) ⟨.pendant, 2, none, some 99, none⟩ = none) ∧
    ((crowded 0 .missedCheckIn).alarms.records.filter fun r => r.acked) = [] ∧
    (∀ r ∈ (crowded 1 .duress).alarms.records.filter fun r => r.acked, r.key.kind.priority < 2) ∧
    (∃ v, ((crowded 1 .missedCheckIn).alarms.records.filter fun r => r.acked) = [] ++ v :: [] ∧ 2 ≤ v.key.kind.priority) :=
  ⟨fun k n hk hn => ⟨rfl, crowded_sound k hk n hn, rfl,
      (by decide +kernel : ∀ e ∈ part.store.index, e.2.pendant ≠ some 99), by simp [crowded],
      by rcases hk with rfl | rfl <;> rcases hn with rfl | rfl <;> decide +kernel⟩,
    by decide +kernel, by decide +kernel, _, rfl, by decide⟩

/-- A hearing of a pendant, a report that waits already, and a new one. -/
theorem witness_Pendant_Calls_Become_Alarms_reports :
    (let s := polled 10 fun s => { s with alarms := alarmed.alarms };
      Polled s (polling 10 0 false) ∧ nodeType s 10 = .pendant ∧ (s.node 10).input.length = 16 ∧
        (heardRecord s ⟨77, (s.config.node 10).zone⟩).isSome = true) ∧
    (let s := polled 10 fun s => { s with alarms := { s.alarms with arrivals := [⟨78, 2⟩] } };
      Polled s (polling 10 0 false) ∧ heardRecord s ⟨78, (s.config.node 10).zone⟩ = none ∧
        (⟨78, (s.config.node 10).zone⟩ : PendantCall) ∈ s.alarms.arrivals) ∧
    (Polled (polled 10 id) (polling 10 0 false) ∧
      heardRecord (polled 10 id) ⟨65535, ((polled 10 id).config.node 10).zone⟩ = none ∧
      (⟨65535, ((polled 10 id).config.node 10).zone⟩ : PendantCall) ∉ (polled 10 id).alarms.arrivals) :=
  ⟨⟨polled_polled rfl rfl rfl rfl rfl rfl, by decide +kernel⟩, ⟨polled_polled rfl rfl rfl rfl rfl rfl, by decide +kernel⟩,
    ⟨polled_polled rfl rfl rfl rfl rfl rfl, by decide +kernel⟩⟩

theorem witness_Grant_Escort_Takes_The_Lowest :
    Takes part console Code.grantEscort ∧ tracked part 15 = true ∧ part.clock.timeKnown = true ∧
      (∀ k, k ≤ 16 → 1 ≤ k → (part.grant k).state = .live → (part.grant k).zone = 15 → (part.grant k).escort ≠ 16777214) ∧
      (part.grant 2).state = .free ∧ (∀ k, k ≤ 1 → 1 ≤ k → (part.grant k).state ≠ .free) :=
  ⟨takes_console _ rfl, by decide +kernel⟩

/-- All sixteen grants in use, one of them LIVE and the others in OVERSTAY, for escort 1000 on zone 2. -/
def granted : State :=
  { part with afterHours := { part.afterHours with
      grants := (16, ⟨.live, 2, 1000, 200, 4, 0⟩) :: (List.range 15).map fun k => (k + 1, ⟨.overstay, 2, 1000, 200, 4, 1⟩) } }

/-- The refusals: an untracked zone; the time unknown; a LIVE grant of the same escort and zone; none of another escort,
and no FREE grant. -/
theorem witness_Grant_Escort_Takes_The_Lowest_refused :
    tracked part 4 = false ∧
      Takes { part with clock := ⟨0, 0, false, none⟩ } console Code.grantEscort ∧ tracked part 2 = true ∧
      Takes granted console Code.grantEscort ∧ tracked granted 2 = true ∧ granted.clock.timeKnown = true ∧
      (granted.grant 16).state = .live ∧ (granted.grant 16).zone = 2 ∧ (granted.grant 16).escort = 1000 ∧
      ∀ k, k ≤ 16 → 1 ≤ k → (granted.grant k).state ≠ .free ∧ (granted.grant k).escort ≠ 2000 :=
  ⟨by decide +kernel, takes_idle _ _ rfl rfl rfl rfl, by decide +kernel, takes_idle _ _ rfl rfl rfl rfl, by decide +kernel⟩

def expiring (minute count : Nat) : State :=
  putGrant 16 ⟨.live, 15, 1000, minute, 4, count⟩ part

theorem witness_Grants_End_By_Expiry_Or_Revocation :
    ((expiring 100 0).serving = true ∧ ((expiring 100 0).grant 16).state = .live ∧
      ((expiring 100 0).grant 16).expiry = (expiring 100 0).clock.timeOfWeek) ∧
    ((expiring 101 1).grant 16).expiry = ((expiring 101 1).clock.timeOfWeek + 1) % 10080 ∧
    (part.grant 2).state = .free ∧ ((putGrant 1 ⟨.overstay, 2, 1000, 90, 4, 1⟩ part).grant 1).state = .overstay ∧
    Takes part console Code.revokeGrant :=
  ⟨by decide +kernel, by decide +kernel, by decide +kernel, by decide +kernel, takes_console _ rfl⟩

theorem witness_Grants_End_By_Expiry_Or_Revocation_overstay :
    (let s := putSlot 127 { part.slot 127 with grant := some 16 } (expiring 100 1);
      s.serving = true ∧ (s.grant 16).state = .live ∧ (s.grant 16).expiry = s.clock.timeOfWeek ∧ (s.grant 16).count ≠ 0 ∧
        (s.slot 127).grant = some 16 ∧ (s.slot 127).zone = some (s.grant 16).zone ∧
        s.alarms.records.length + (List.range 128).countP (fun i => decide ((s.slot i).grant = some 16) &&
          decide ((s.slot i).zone = some (s.grant 16).zone)) ≤ 32) := by decide +kernel

/-- Person 3000 of slot 127 under supervision, with a deadline of a stage. -/
def supervised (minute : Nat) (st : Stage) (s : State) : State :=
  putSlot 127 { s.slot 127 with mark := true, deadline := some ⟨minute, 5, st⟩ } s

/-- The deadline at its point, in either stage; and one that is not reached. -/
theorem witness_Check_Ins_Pass_Their_Stages :
    ∀ st ∈ [Stage.due, .grace], ∀ m ∈ [100, 101], (supervised m st part).serving = true ∧
      ((supervised m st part).slot 127).deadline = some ⟨m, 5, st⟩ ∧ ((supervised m st part).slot 127).zone = some 15 ∧
      (m = 100 → m = (supervised m st part).clock.timeOfWeek) ∧ (m = 101 → m ≠ (supervised m st part).clock.timeOfWeek) ∧
      5 = (supervised m st part).clock.minuteTimer ∧ (supervised m st part).alarms.records.length < 32 := by decide +kernel

/-- A sign of life of that person: at the reader of door 31 that faces zone 15, and by the check-in button of a station
node in zone 2, where person 1000 is supervised. -/
theorem witness_Check_Ins_Pass_Their_Stages_signs :
    (let s := polled 59 (supervised 100 .due);
      Polled s (polling 59 0 false) ∧ (s.node 59).input.length = 16 ∧ nodeType s 59 = .door ∧ doorOfNode s 59 = some 31 ∧
        holder s 3000 = some 127 ∧ (s.config.door 31).facing .b = 15 ∧ (s.slot 127).zone = some 15 ∧
        (s.slot 127).mark = true ∧ (s.slot 127).deadline.isSome = true) ∧
    (let s := polled 9 fun s => putSlot 0 { s.slot 0 with mark := true, deadline := some ⟨100, 5, .missed⟩ } s;
      Polled s (polling 9 0 false) ∧ (s.node 9).input.length = 16 ∧ nodeType s 9 = .station ∧
        circuitFn s 9 3 = .checkIn ∧ reading s 9 3 = some .normal) :=
  ⟨⟨polled_polled rfl rfl rfl rfl rfl rfl, by decide +kernel⟩, ⟨polled_polled rfl rfl rfl rfl rfl rfl, by decide +kernel⟩⟩

/-- R98: a check-in taken before the deadline's event leaves the new deadline. -/
theorem test_check_in_first :
    ((after (.checkInDeadlineReached 127) (after (.goodReply (.ready false quietNode.input (.presentations [⟨3000, .b, false⟩])))
      (polled 59 (supervised 100 .due)))).slot 127).deadline = some ⟨160, 5, .due⟩ := by decide +kernel

def standing (v : GroupVol) : State := putGroup 3 v part

theorem takes_standing (v : GroupVol) (code : Nat) (hr : roleAllows .fire code = true) : Takes (standing v) panel code :=
  takes_idle _ _ rfl rfl hr rfl

theorem witness_Confirm_Fire_Begins_The_Countdown :
    Takes part panel Code.confirmFire ∧ (part.group 3).state = .normal ∧ (part.group 3).spent = false ∧
      (∀ v, Takes (standing v) panel Code.confirmFire) ∧
      (((standing { idleGroup with spent := true }).group 3).spent = true ∧
        ((standing { idleGroup with spent := true }).port .console).filter.getLsbD 2 = true ∧
        ((standing { idleGroup with spent := true }).port .console).notices.length < 31) ∧
      ((standing (groupIn .lockout none none)).group 3).state = .lockout ∧
      ((standing (groupIn .discharged none none)).group 3).state = .discharged :=
  ⟨takes_panel _ rfl, rfl, rfl, fun v => takes_standing v _ rfl, by decide +kernel, by decide +kernel, by decide +kernel⟩

/-- R57: a door of group 0 released for an entry into zone 2 and one whose pair waits for zone 1 are dealt with as the
countdown begins. -/
theorem test_sealed_doors :
    let s := putDoor 1 (openFor 2) (putDoor 2 pairDoor part);
    ((after (.confirmFire panel 0) s).door 1).state = .secure ∧
      ((after (.confirmFire panel 0) s).door 2).respA = .refused .sealed := by decide +kernel

/-- Detector node 8 polled, its circuits reading so before the reply, with group 0 in a state. -/
def detecting (was : List Reading) (v : GroupVol) : State :=
  polled 8 fun s => putNode 8 { quietNode with input := was ++ List.replicate 14 .normal } (putGroup 0 v s)

/-- The premises of each clause for a reply of node 8: what its circuits 0 and 1 read before and after, and which of the
two sets of group 0 are then active. -/
theorem witness_Confirm_Fire_Begins_The_Countdown_detectors :
    (∀ was v, was.length = 2 → Polled (detecting was v) (polling 8 0 false) ∧ RosterSound (detecting was v)) ∧
    nodeType (detecting [.normal, .normal] idleGroup) 8 = .detector ∧
    ((detecting [.normal, .normal] idleGroup).config.group 0).detectors = [(8 * 16 + 0, .x), (8 * 16 + 1, .y)] ∧
    (∀ st ∈ [GroupState.normal, .alert, .lockout], ∀ spent ∈ [true, false], ∀ was ∈ [[Reading.normal, .normal], [.active, .normal]],
      ((detecting was { idleGroup with state := st, spent }).group 0).state = st ∧
      ((detecting was { idleGroup with state := st, spent }).group 0).spent = spent ∧
      ((detecting was { idleGroup with state := st, spent }).node 8).sup = .online ∧
      (∀ c ∈ [0, 1], reading (detecting was { idleGroup with state := st, spent }) 8 c = was[c]?)) :=
  ⟨fun was v _ => ⟨polled_polled rfl rfl rfl rfl rfl rfl, rosterSound_like part_rosterSound rfl rfl⟩, by decide +kernel,
    by decide +kernel, by decide +kernel⟩

/-- R109, R110: the second set of group 0 comes to the first, and the countdown of 350 begins for one occupant. -/
theorem test_cross_confirmation :
    (after (.goodReply (.ready false ([.active, .active] ++ List.replicate 14 .normal) (.presentations [])))
      (detecting [.active, .normal] { idleGroup with state := .alert })).group 0 = groupIn .countdown (some 350) (some 0) := by
  decide +kernel

/-- The notices of an idle Fire Port after a command: the one it sends and those that wait. -/
def fireNotices (s : State) : List Notice :=
  (match (s.port .fire).sending with
    | some (.notice n) => [n]
    | _ => []) ++ (s.port .fire).notices

/-- What they say of groups: their types, each with its group. -/
def fireGroups (s : State) : List (NoticeType × Option Val) := (fireNotices s).map fun n => (n.type, n.values.head?)

/-- R162: the circuits of a detector node are handed on in circuit order, circuit 0 of group 1 before circuit 1 of
group 0, each with what its group does of it. -/
theorem test_circuit_order :
    let s := detecting [.normal, .normal] idleGroup;
    fireGroups (after (.goodReply (.ready false ([.active, .active] ++ List.replicate 14 .normal) (.presentations [])))
      { s with config := { records with groups :=
        [(0, { GroupRec.default 0 with detectors := [(129, .x)] }), (1, { GroupRec.default 1 with detectors := [(128, .x)] })] } }) =
      [(.groupDetection, some (.u8 1)), (.groupStateChanged, some (.u8 1)),
       (.groupDetection, some (.u8 0)), (.groupStateChanged, some (.u8 0))] := by decide +kernel

/-- R106, R162: a Restart makes the circuits of the detector node unreported, an active one and a faulted one. -/
theorem test_restart_circuits :
    let s := detecting [.active, .openFault] idleGroup;
    fireGroups (after (.restart console) { s with loop := { s.loop with exchange := none } }) =
      [(.groupDetection, some (.u8 0)), (.groupDetectorFault, some (.u8 0)), (.groupStateChanged, some (.u8 0)),
       (.groupStateChanged, some (.u8 1)), (.groupStateChanged, some (.u8 2)), (.groupStateChanged, some (.u8 3))] := by
  decide +kernel

/-- R132: the notice of a change of the agent-spent flag holds the five values of every group notice. -/
theorem test_spent_notice :
    ((fireNotices (after (.rearm panel 3) (standing { idleGroup with state := .lockout, spent := true }))).filter
      fun n => n.type = .groupSpentChanged).map (fun n => n.values.length) = [5] := by
  decide +kernel

/-- Station node 9 polled, with group 0 in a state. -/
def pressing (v : GroupVol) : State := polled 9 (putGroup 0 v)

theorem witness_Confirm_Fire_Begins_The_Countdown_manual :
    ∀ v, v = idleGroup ∨ v = groupIn .held (some 300) (some 50) ∨ v = groupIn .sealWait (some 0) (some 50) →
      Polled (pressing v) (polling 9 0 false) ∧ AlarmsSound (pressing v) ∧ nodeType (pressing v) 9 = .station ∧
      circuitFn (pressing v) 9 1 = .manualRelease ∧ ((pressing v).node 9).input.length = 16 ∧
      reading (pressing v) 9 1 = some .normal ∧ zoneGroup (pressing v) ((pressing v).config.node 9).zone = some 0 ∧
      (pressing v).group 0 = v := by
  intro v h
  refine ⟨polled_polled rfl rfl rfl rfl rfl rfl, sound_quiet rfl, rfl, rfl, rfl, rfl, rfl, ?_⟩
  rcases h with rfl | rfl | rfl <;> decide +kernel

/-- Group 0 held by the abort circuit of its station node, which is LOST. -/
def heldByLost : State :=
  putNode 9 { quietNode with sup := .lost, input := .active :: List.replicate 15 .normal }
    (putGroup 0 (groupIn .held (some 30) (some 4)) part)

theorem witness_Holds_Stop_The_Countdown :
    (Takes busy panel Code.panelHold ∧ (busy.group 3).panelHold = false ∧ (busy.group 3).state = .countdown ∧
      (busy.group 3).manual = false) ∧
    (Takes heldByPanel panel Code.panelResume ∧ (heldByPanel.group 3).panelHold = true ∧
      (heldByPanel.group 3).state = .held ∧ (heldByPanel.group 3).manual = false ∧ heldAborts heldByPanel 3 = []) ∧
    (Takes heldByLost panel Code.overrideHold ∧ (heldByLost.group 0).panelHold = false ∧
      (heldByLost.group 0).state = .held ∧ (heldByLost.group 0).manual = false ∧ heldAborts heldByLost 0 = [144] ∧
      (heldByLost.node (144 / 16)).sup = .lost) :=
  ⟨⟨takes_idle _ _ rfl rfl rfl rfl, by decide +kernel⟩, ⟨takes_idle _ _ rfl rfl rfl rfl, by decide +kernel⟩,
    ⟨takes_idle _ _ rfl rfl rfl rfl, by decide +kernel⟩⟩

/-- Station node 9 polled: in COUNTDOWN with its abort circuit at rest, and in HELD by that circuit. -/
theorem witness_Holds_Stop_The_Countdown_aborts :
    (let s := pressing (groupIn .countdown (some 30) (some 4));
      Polled s (polling 9 0 false) ∧ AlarmsSound s ∧ nodeType s 9 = .station ∧ circuitFn s 9 0 = .abort ∧
        (s.node 9).input.length = 16 ∧ zoneGroup s (s.config.node 9).zone = some 0 ∧ reading s 9 0 ≠ some .active ∧
        (s.group 0).manual = false ∧ (s.group 0).state = .countdown) ∧
    (let s := polled 9 fun s => putNode 9 { quietNode with input := quietNode.input.set 0 .active }
        (putGroup 0 (groupIn .held (some 30) (some 4)) s);
      Polled s (polling 9 0 false) ∧ AlarmsSound s ∧ reading s 9 0 = some .active ∧ (s.group 0).state = .held ∧
        (s.group 0).panelHold = false ∧ ∀ q ∈ heldAborts s 0, q = 9 * 16 + 0) :=
  ⟨⟨polled_polled rfl rfl rfl rfl rfl rfl, sound_quiet rfl, by decide +kernel⟩,
    ⟨polled_polled rfl rfl rfl rfl rfl rfl, sound_quiet rfl, by decide +kernel⟩⟩

theorem witness_Groups_Are_Locked_Out_And_Evaluated :
    (∀ v code, roleAllows .fire code = true → Takes (standing v) panel code) ∧
      ((standing (groupIn .releasing none none)).group 3).state = .releasing ∧
      ((standing (groupIn .lockout none none)).group 3).state = .lockout ∧
      ((standing (groupIn .alert none none)).group 3).state = .alert ∧
      (standing (groupIn .lockout none none)).configValid = true ∧
      (standing (groupIn .lockout none none)).loop.passDone = true ∧
      ({ standing (groupIn .lockout none none) with configValid := false } : State).configValid = false ∧
      ((standing (groupIn .discharged none none)).group 3).state = .discharged :=
  ⟨fun v code hr => takes_standing v code hr, by decide +kernel⟩

/-- A group number above 3, for each request of the Fire Port that names a group. -/
theorem witness_groups_above_three :
    (∀ code ∈ [Code.confirmFire, Code.panelHold, Code.panelResume, Code.overrideHold, Code.lockout, Code.liftLockout,
      Code.declareClear, Code.rearm], Takes part panel code) ∧ 3 < (4 : Nat) :=
  ⟨fun code h => takes_idle _ _ rfl rfl ((by decide : ∀ code ∈ [Code.confirmFire, Code.panelHold, Code.panelResume,
    Code.overrideHold, Code.lockout, Code.liftLockout, Code.declareClear, Code.rearm],
    roleAllows panel.port code = true) code h) rfl, by decide⟩

theorem witness_Rearm_Clears_The_Agent_Flag :
    Takes part panel Code.rearm ∧ (part.group 3).state = .normal ∧ Takes busy panel Code.rearm ∧
      (busy.group 3).state ≠ .normal ∧ (busy.group 3).state ≠ .lockout :=
  ⟨takes_panel _ rfl, rfl, takes_idle _ _ rfl rfl rfl rfl, by decide +kernel, by decide +kernel⟩

theorem witness_Countdown_Runs_To_The_Release :
    (∀ rem ∈ [2, 1], (standing (groupIn .countdown (some rem) (some 65535))).serving = true ∧
      ((standing (groupIn .countdown (some rem) (some 65535))).group 3).state = .countdown ∧
      ((standing (groupIn .countdown (some rem) (some 65535))).group 3).remaining = some rem ∧
      ((standing (groupIn .countdown (some rem) (some 65535))).group 3).elapsed = some 65535) ∧
    ((standing (groupIn .sealWait (some 0) (some 9))).group 3).state = .sealWait := by decide +kernel

/-- Group 0 in SEAL-WAIT, the contact of its door 1 about to close: alone open, or with door 0 open as well. -/
theorem witness_Countdown_Runs_To_The_Release_sealed :
    ∀ v ∈ [shutDoor, { shutDoor with contact := .open }],
      let s := polled 6 fun s => putNode 6 openNode (putDoor 0 v (putDoor 1 { shutDoor with state := .forced, contact := .open }
        (putGroup 0 { groupIn .sealWait (some 0) (some 9) with sealTimer := some 20 } s)));
      Polled s (polling 6 0 false) ∧ AlarmsSound s ∧ nodeType s 6 = .door ∧ doorOfNode s 6 = some 1 ∧
        (s.node 6).input.length = 16 ∧ reading s 6 2 ≠ some .normal ∧ (s.door 1).contact ≠ .closed ∧
        (s.door 1).state = .forced ∧ (∀ i, i ≤ 127 → (s.slot i).pendDoor ≠ some 1) ∧ 1 ∈ groupDoors s 0 ∧
        (s.group 0).state = .sealWait ∧ notClosed s 0 = (if v = shutDoor then [1] else [0, 1]) := by
  intro v hv
  rcases List.mem_pair.mp hv with rfl | rfl <;>
    exact ⟨polled_polled rfl rfl rfl rfl rfl rfl, sound_quiet rfl, by decide +kernel⟩

/-- Person 3000 moved from zone 15 into zone 1 of group 0, whose countdown or seal wait is recomputed: with 400 elapsed
the delay of 400 for its two occupants leaves nothing, with 350 it leaves 50. -/
theorem witness_Countdown_Runs_To_The_Release_recompute :
    ∀ v, v = groupIn .countdown (some 2) (some 350) ∨ v = groupIn .sealWait (some 0) (some 350) ∨
        v = groupIn .sealWait (some 0) (some 400) →
      let s := putGroup 0 v part;
      Takes s console Code.moveRosterEntry ∧ AlarmsSound s ∧ RosterSound s ∧ (s.slot 127).state = .present ∧
        (s.slot 127).zone = some 15 ∧ tracked s 1 = true ∧ committed s 1 + 1 ≤ (s.config.zone 1).capacity ∧
        (s.slot 127).grant = none ∧ s.place 127 = none ∧ zoneGroup s 1 = some 0 ∧ s.group 0 = v := by
  intro v h
  refine ⟨takes_idle _ _ rfl rfl rfl rfl, sound_quiet rfl, rosterSound_like part_rosterSound rfl rfl, rfl, rfl, rfl,
    (by decide +kernel : committed part 1 + 1 ≤ (part.config.zone 1).capacity), rfl, rfl, rfl, ?_⟩
  rcases h with rfl | rfl | rfl <;> decide +kernel

/-- R116, R123: the seal wait goes back to the countdown with what the new occupant brings. -/
theorem test_recompute :
    (after (.moveRosterEntry console 127 1) (putGroup 0 (groupIn .sealWait (some 0) (some 350)) part)).group 0 =
      groupIn .countdown (some 50) (some 350) := by decide +kernel

theorem witness_Pulse_Ends_In_Discharge :
    releasing.serving = true ∧ (releasing.group 0).state = .releasing ∧ (releasing.grant 1).state = .live ∧
      zoneGroup releasing (releasing.grant 1).zone = some 0 ∧ 2 ∈ groupZones releasing 0 ∧ 0 < occupancy releasing 2 ∧
      releasing.alarms.records.length + (groupZones releasing 0).length ≤ 32 := by decide +kernel

theorem witness_Alarm_Records_Run_Their_Course :
    Takes alarmed console Code.acknowledgeAlarm ∧ Takes alarmed console Code.clearAlarm ∧ alarmed.serving = true ∧
    alarmNumbered alarmed 254 = none ∧
    ((alarmNumbered alarmed 1).any fun r => !r.acked && decide (r.level < 3)) = true ∧
    ((alarmNumbered alarmed 2).any fun r => r.key.kind.latching && r.acked && !r.active) = true ∧
    ((alarmNumbered alarmed 3).any fun r => decide (r.key.kind = .pendant) && r.active && decide (r.silence = some 0)) = true ∧
    ((alarmNumbered alarmed 4).any fun r => decide (r.silence ≠ some 0)) = true ∧
    ((alarmNumbered alarmed 255).any fun r => !r.key.kind.latching && !r.acked) = true :=
  ⟨takes_idle _ _ rfl rfl rfl rfl, takes_idle _ _ rfl rfl rfl rfl, rfl, by decide +kernel, by decide +kernel⟩

theorem witness_Poll_Replies_Keep_A_Node_Online :
    Polled (polled 60 id) (polling 60 0 false) ∧ nodeType (polled 60 id) 60 ≠ .detector ∧
      ((polled 60 id).node 60).input.length = 16 :=
  ⟨polled_polled rfl rfl rfl rfl rfl rfl, by decide +kernel⟩

/-- The last entry of the first pass, group 3 in STARTUP. -/
def lastPoll : State :=
  polled 60 fun s => putGroup 3 { idleGroup with state := .startup }
    { s with loop := { s.loop with passDone := false, position := 7, tried := List.replicate 7 true } }

theorem witness_Poll_Replies_Keep_A_Node_Online_pass :
    RosterSound lastPoll ∧ lastPoll.serving = true ∧ lastPoll.loop.exchange = some (polling 60 0 false) ∧ (polling 60 0 false).step = true ∧
      (polling 60 0 false).record = lastPoll.config.node 60 ∧ (lastPoll.node 60).sup = .online ∧
      nodeType lastPoll 60 ≠ .detector ∧ (lastPoll.node 60).input.length = 16 ∧ lastPoll.loop.passDone = false ∧
      lastPoll.configValid = true ∧ lastPoll.loop.rewritten = false ∧ (lastPoll.group 3).state = .startup ∧
      (∀ i ∈ List.range lastPoll.config.pollList.length,
        i = lastPoll.loop.position ∨ lastPoll.loop.tried[i]? = some true) :=
  ⟨rosterSound_like part_rosterSound rfl rfl, by decide +kernel⟩

/-- Node 6 before its first report, and LOST after four GOOD exchanges of the five that bring it back. -/
theorem witness_Poll_Replies_Keep_A_Node_Online_again :
    ∀ v, v = NodeVol.initial ∨ v = { quietNode with sup := .lost, g := 4 } →
      let s := polled 6 (putNode 6 v);
      s.serving = true ∧ s.loop.exchange = some (polling 6 0 false) ∧ (polling 6 0 false).record = s.config.node 6 ∧
        s.loop.passDone = true ∧ (polling 6 0 false).timing.g = 5 ∧ nodeType s 6 = .door ∧ doorOfNode s 6 = some 1 ∧
        ((s.node 6).sup = .unknown ∨ (s.node 6).sup = .lost ∧ 5 ≤ (s.node 6).g + 1) := by
  intro v h
  refine ⟨rfl, rfl, rfl, rfl, rfl, rfl, rfl, ?_⟩
  rcases h with rfl | rfl <;> decide +kernel

/-- Node 60 polled under the record it had before a write of its functions. -/
def written60 : State := { inExchange (polling 60 0 false) with config := records.putNode 60 ⟨.station, 15, [.call, .none]⟩ }

theorem witness_Poll_Replies_Keep_A_Node_Online_record :
    written60.serving = true ∧ written60.loop.exchange = some (polling 60 0 false) ∧
      (polling 60 0 false).record ≠ written60.config.node 60 ∧ (written60.node 60).sup = .online ∧
      nodeType written60 60 = .station := by decide +kernel

/-- R153: node 60 was written while its abort circuit stood ACTIVE: the circuit holds nothing until the node's next
report of a change. -/
theorem test_written_functions :
    let s : State := { inExchange (polling 60 0 false) with config := records.putNode 60 ⟨.station, 15, [.abort, .none]⟩ };
    let s := putNode 60 { quietNode with input := quietNode.input.set 0 .active, readBy := some (records.node 60) }
      (putGroup 3 (groupIn .countdown (some 30) (some 4)) s);
    holdInForce s 3 = false := by decide +kernel

/-- R142, R152, R168: a call cause of zone 15 stays active where node 60 is lost after a Restart without a report. -/
theorem test_call_through_a_loss :
    let s := after (.restart console) (arrive (.plain (.call 15)) part);
    let t := after .replyTimeout { s with loop := { s.loop with exchange := some (polling 60 2 false) } };
    ((t.node 60).sup, t.alarms.records.map (·.active)) = (.lost, [true]) := by decide +kernel

/-- R117: a write that makes the holding station NONE names its abort circuit as the source of "hold off". -/
theorem test_hold_off_source :
    let s := putNode 60 { quietNode with input := quietNode.input.set 0 .active }
      { part with config := records.putNode 60 ⟨.station, 15, [.abort, .none]⟩ };
    ((fireNotices (after (.writeConfigurationRecord console 60 (.node ⟨0, 0, List.replicate 16 0⟩)) s)).filter
      fun n => n.type = .groupHoldOff).map (fun n => n.values.getLast?) = [some (.u16 960)] := by decide +kernel

theorem witness_Call_Buttons_Raise_Their_Alarm :
    Polled (inExchange (polling 60 0 false)) (polling 60 0 false) ∧ AlarmsSound (inExchange (polling 60 0 false)) ∧
    nodeType (inExchange (polling 60 0 false)) 60 = .station ∧ circuitFn (inExchange (polling 60 0 false)) 60 1 = .call ∧
      reading (inExchange (polling 60 0 false)) 60 1 = some .normal ∧
      (((inExchange (polling 60 0 false)).node 60).input.set 1 .active).length = 16 ∧
      (inExchange (polling 60 0 false)).alarms.records.length < 32 :=
  ⟨⟨rfl, rfl, rfl, rfl, rfl, rfl, rfl, rfl, rfl⟩, sound_quiet rfl, by decide +kernel⟩

theorem witness_Attempts_Fail_Before_Exchanges :
    ((polling 9 0 false).fails < (polling 9 0 false).timing.r ∧ (polling 9 0 false).quiet = false) ∧
    ((polling 9 2 false).timing.r ≤ (polling 9 2 false).fails ∧ (polling 9 2 false).judged = false ∧
      (inExchange (polling 9 2 false)).loop.passDone = true ∧ ((inExchange (polling 9 2 false)).node 9).sup = .online ∧
      (polling 9 2 false).timing.l ≤ 15) ∧
    ((inExchange (polling 9 1 true)).serving = true ∧
      (inExchange (polling 9 1 true)).loop.exchange = some (polling 9 1 true) ∧ (polling 9 1 true).stale = false) := by
  decide +kernel

/-- The last attempt of a poll of a node whose failure count is at its limit. -/
def losing (n : Nat) (f : State → State) : State :=
  f (putNode n { quietNode with f := 2, input := .active :: List.replicate 15 .normal } (inExchange (polling n 2 false)))

/-- The loss of the node of a released door and of an open one, each with a reservation; of a station node whose abort
circuit is held; and of a node under test. -/
theorem witness_Attempts_Fail_Before_Exchanges_lost :
    (polling 9 2 false).timing.l = 3 ∧ (polling 9 2 false).timing.r = 2 ∧
    (∀ st ∈ [DoorState.released, .open],
      let s := losing 6 fun s => putDoor 1 { openFor 3 with state := st }
        (putSlot 0 { s.slot 0 with state := .presentMoving, pendZone := some 3, pendDoor := some 1 } s);
      s.serving = true ∧ s.loop.exchange = some (polling 6 2 false) ∧ (polling 6 2 false).record = s.config.node 6 ∧
        s.loop.passDone = true ∧ (s.node 6).sup = .online ∧ (s.node 6).f = 2 ∧ nodeType s 6 = .door ∧
        doorOfNode s 6 = some 1 ∧ (s.door 1).state = st ∧ (s.slot 0).pendDoor = some 1 ∧ (s.slot 0).pendZone = some 3) ∧
    (let s := losing 9 (putGroup 0 (groupIn .held (some 30) (some 4)));
      s.loop.exchange = some (polling 9 2 false) ∧ (polling 9 2 false).record = s.config.node 9 ∧ (s.node 9).sup = .online ∧
        nodeType s 9 = .station ∧ 9 ∉ s.release.holdMarks ∧ (s.group 0).state = .held ∧ holdInForce s 0 = true) ∧
    (let s := losing 60 fun s => { s with loopTest := some (LoopTest.start 60 16 [3]) };
      s.loop.exchange = some (polling 60 2 false) ∧ (s.node 60).sup = .online ∧ s.loopTest = some (LoopTest.start 60 16 [3]) ∧
        (LoopTest.start 60 16 [3]).cause = none ∧ ∀ g ∈ [3], (s.group g).state = .normal) ∧
    AlarmsSound (losing 9 id) :=
  ⟨by decide +kernel, by decide +kernel, by decide +kernel, by decide +kernel, by decide +kernel, sound_quiet rfl⟩

/-- R159: the test of a TEST reply is not asked of a POLL, and the length of its data is. -/
theorem test_reply_fault_asked :
    after (.attemptFailsOnReply .testReply) (inExchange (polling 9 0 false)) = inExchange (polling 9 0 false) ∧
      ((after (.attemptFailsOnReply .tooShort) (inExchange (polling 9 0 false))).loop.exchange.any fun e => e.quiet) = true := by
  decide +kernel

theorem witness_Loop_Tests_Run_By_Windows :
    (Takes part console Code.startLoopTest ∧ nodeType part 60 ≠ .none ∧ part.loopTest = none ∧ (part.node 60).sup = .online ∧
      (∀ g ∈ groupsOfNode part 60, (part.group g).state = .normal)) ∧
    (Takes testing9 console Code.stopLoopTest ∧ (testing9.loopTest.any fun k => decide (k.cause = none)) = true) ∧
    (testing9.serving = true ∧ (testing9.loopTest.any fun k => k.inWindow + 1 == k.window) = true ∧
      (testing9.node 9).sup = .online ∧ testing9.loop.passDone = true ∧
      (testing9.loop.exchange.any fun ex => ex.judged && !ex.stale && !ex.quiet && ex.node == 9) = true) :=
  ⟨⟨takes_console _ rfl, by decide +kernel⟩, ⟨takes_idle _ _ rfl rfl rfl rfl, by decide +kernel⟩, by decide +kernel⟩

/-- The checker of a test on node 9, at a boundary of its runs. -/
def checking (inSync : Bool) (checker : Option (BitVec 7)) (hits misses : Nat) : LoopTest :=
  { LoopTest.start 9 16 [0] with inSync, checker, hits, misses, errors := 65535 }

/-- A match, the seventh and the eighth, and echoes that no register or another register predicts; in sync a match and a
mismatch, the seventh and the eighth; and TEST exchanges that end GOOD short of the window's end, or FAILED by each test. -/
theorem witness_Loop_Tests_Run_By_Windows_checker :
    (∀ hits ∈ [6, 7], (checking false (some 0x7F#7) hits 0).inSync = false ∧
      ∃ r, (checking false (some 0x7F#7) hits 0).checker = some r ∧ nextByte r = 0x02#8) ∧
    (6 + 1 < 8 ∧ 8 ≤ 7 + 1) ∧
    (¬ ∃ r, (checking false none 7 0).checker = some r ∧ nextByte r = 0x02#8) ∧
    (¬ ∃ r, (checking false (some 0x7F#7) 7 0).checker = some r ∧ nextByte r = 0x80#8) ∧
    (∀ misses ∈ [6, 7], (checking true (some 0x7F#7) 8 misses).inSync = true ∧
      (checking true (some 0x7F#7) 8 misses).checker = some 0x7F#7) ∧
    (none : Option Byte) ≠ some (nextByte 0x7F#7) ∧ some 0x80#8 ≠ some (nextByte 0x7F#7) ∧
    (∀ window ∈ [16, 17], let s := ({ inExchange { polling 9 2 false with command := .test 0x02#8, judged := true } with
        loopTest := some { checking true (some 0x7F#7) 8 7 with inWindow := 15, window } } : State);
      s.serving = true ∧ s.loop.exchange = some { polling 9 2 false with command := .test 0x02#8, judged := true } ∧
        s.loopTest = some { checking true (some 0x7F#7) 8 7 with inWindow := 15, window } ∧ 15 + 1 ≤ window ∧
        (s.node 9).sup = .online ∧ s.loop.passDone = true ∧ (polling 9 2 false).timing.r ≤ (polling 9 2 false).fails ∧
        (polling 9 2 false).timing.l ≤ 15 ∧ (s.node 9).f + 1 < (polling 9 2 false).timing.l) := by
  refine ⟨fun hits h => ?_, by decide, ?_, ?_, by decide +kernel, by decide, by decide +kernel, by decide +kernel⟩
  · exact ⟨rfl, 0x7F#7, rfl, by decide +kernel⟩
  · rintro ⟨r, h, -⟩; cases h
  · rintro ⟨r, h, e⟩; cases h; revert e; decide +kernel

/-- R177: the errors of a checker in sync stay at 65535, and its eighth mismatch in a row loses sync. -/
theorem test_checker_loses_sync :
    ((checking true (some 0x7F#7) 8 6).judge none).inSync = true ∧ ((checking true (some 0x7F#7) 8 6).judge none).errors = 65535 ∧
      ((checking true (some 0x7F#7) 8 7).judge none).inSync = false ∧
      ((checking true (some 0x7F#7) 8 7).judge none).checker = none := by decide +kernel

theorem witness_Point_Commands_Write_One_Output :
    (∀ code, roleAllows .console code = true → Takes part console code) ∧
      (nodeType part (975 / 16) ≠ .none ∧ outputOwner part 975 = .none ∧ strongroomLock part 975 = false) ∧
      (nodeType part (80 / 16) ≠ .none ∧ outputOwner part 80 ≠ .none) ∧ strongroomLock part 112 = true ∧
      nodeType part (16 / 16) = .none :=
  ⟨fun code hr => takes_console code hr, by decide +kernel⟩

theorem witness_Configuration_Writes_Are_In_Flight :
    Takes part console Code.writeConfigurationRecord ∧ Takes part console Code.setAccessWindow ∧
      ((scheduleOf (List.replicate 4 ⟨0x7F#8, 0, 2000⟩)).any fun r => r.2) = true ∧
      ((zoneOf ⟨true, 1, 0, none, 9, 20, 5⟩).any fun r => !breaksDoors part 1 .reading || !zoneBusy part 4 r.1) = true ∧
      breaksDoors part 4 .reading = false ∧ zoneBusy part 4 ⟨true, .reading, 0, none, 9, 20, 5⟩ = false ∧
      breaksDoors part 15 .reading = false ∧ zoneBusy part 15 ⟨true, .reading, 0, none, 9, 20, 5⟩ = true :=
  ⟨takes_console _ rfl, takes_console _ rfl, by decide +kernel⟩

/-- The part with a spare DOOR node 11, ONLINE with its contact open, and a spare station node 60 outside every list. -/
def spare (v : NodeVol) : State :=
  putNode 11 v { part with config := records.putNode 11 ⟨.door, 0, []⟩ }

def rawDoor (sideA sideB cls node : Nat) : RawDoor := ⟨sideA, sideB, cls, node, 0, 300, 3000, 300, 0⟩

/-- Door records: one refused for its own fields, one for its node, one for a door that is not idle; and those taken that
keep the node, leave it, and name a node that is ONLINE, LOST or UNKNOWN. -/
theorem witness_Configuration_Writes_Are_In_Flight_doors :
    Takes part console Code.writeConfigurationRecord ∧ doorOf (rawDoor 3 0 1 5) = none ∧
    (doorOf (rawDoor 3 15 1 5)).isSome = true ∧
    (part.config.door 0).node = 5 ∧ (part.config.door 31).node = 59 ∧ (busy.door 1).state ≠ .secure ∧
    (∀ raw ∈ [rawDoor 3 15 1 59, rawDoor 3 15 1 0, rawDoor 3 15 1 11], ∀ v ∈ [openNode, { quietNode with sup := .lost }, NodeVol.initial],
      (doorOf raw).isSome = true ∧ ((spare v).door 31).state = .secure ∧ ((spare v).door 31).decA = none ∧
      ((spare v).door 31).decB = none ∧ (raw.node = 0 ∨ nodeType (spare v) raw.node = .door) ∧
      (∀ d ∈ List.range 31, raw.node = 0 ∨ ((spare v).config.door d).node ≠ raw.node) ∧
      (∀ g ∈ List.range 4, ∀ w ∈ ((spare v).config.group g).warnings, w.1 ≠ raw.node * 16) ∧
      Takes (spare v) console Code.writeConfigurationRecord) :=
  ⟨takes_console _ rfl, by decide, by decide, rfl, rfl, by decide +kernel, by
    intro raw hr v hv
    refine ⟨?_, ?_, ?_, ?_, ?_, ?_, ?_, takes_idle _ _ rfl rfl rfl rfl⟩ <;>
      (simp only [List.mem_cons, List.not_mem_nil, or_false] at hr hv
       rcases hr with rfl | rfl | rfl <;> rcases hv with rfl | rfl | rfl <;> decide +kernel)⟩

/-- Node records: retyping a node that a door names is refused, writing one under test is refused, and a spare node is
made NONE, and one more is configured. -/
theorem witness_Configuration_Writes_Are_In_Flight_nodes :
    nodeOf ⟨3, 0, []⟩ = none ∧ nodeOf ⟨0, 0, List.replicate 16 0⟩ = some ⟨.none, 0, []⟩ ∧
    (nodeOf ⟨3, 15, List.replicate 16 4⟩).isSome = true ∧
    (nodeType part 5 ≠ .none ∧ (part.config.door 0).node = 5) ∧ testing testing9 9 = true ∧
    (∀ i ∈ [60, 1],
      testing part i = false ∧ doorOfNode part i = none ∧
      (∀ g ∈ List.range 4, (∀ d ∈ (part.config.group g).detectors, d.1 / 16 ≠ i) ∧
        ∀ w ∈ (part.config.group g).warnings, w.1 / 16 ≠ i) ∧
      (∀ g ∈ List.range 4, (part.group g).state = .normal)) ∧
    part.config.pollList.length < 96 ∧ part.loop.passDone = true := by decide +kernel

/-- Group records: one refused for an untracked zone, one for a group in COUNTDOWN, and one taken. -/
theorem witness_Configuration_Writes_Are_In_Flight_groups :
    (let raw : RawGroup := ⟨0x8000#16, 100, 0, 1, 300, 50, 100, 0, 10, [], 1, [⟨975, 0⟩]⟩;
      (groupOf raw).isSome = true ∧ groupOf { raw with pair := 4 } = none ∧
        (∀ z, 1 ≤ z → z ≤ 15 → raw.zones.getLsbD z = true → tracked part z = true) ∧ tracked part 4 = false ∧
        (∀ k ∈ [0, 2, 3], (part.config.group k).pair ≠ raw.pair) ∧ nodeType part (975 / 16) ≠ .none ∧
        outputOwner part 975 = .none ∧ (part.group 1).state = .normal ∧ (part.group 3).state = .normal ∧
        (busy.group 3).state = .countdown) := by
  refine ⟨by decide, by decide, fun z h1 h2 => ?_, by decide +kernel, by decide +kernel, by decide +kernel,
    by decide +kernel, by decide +kernel, by decide +kernel, by decide +kernel⟩
  interval_cases z <;> decide +kernel

/-- The poll list and the records without index: a list that names every configured node, and one that leaves node 60
out. -/
theorem witness_Configuration_Writes_Are_In_Flight_lists :
    (let ns := [60, 59, 10, 9, 8, 7, 6, 5];
      ns.length ≤ 96 ∧ (∀ n ∈ ns, 1 ≤ n ∧ n ≤ 60 ∧ nodeType part n ≠ .none) ∧
        ∀ n ∈ List.range 61, n = 0 ∨ nodeType part n = .none ∨ n ∈ ns) ∧
    (nodeType part 60 ≠ .none ∧ 60 ∉ [5, 6, 7, 8, 9, 10, 59]) ∧ part.loop.exchange = none ∧
    (inExchange (polling 60 0 false)).loop.exchange ≠ none ∧ part.configValid = true ∧ part.loop.gapLeft = 0 ∧
    ((timingOf ⟨1, 2, 3, 5, 12, 0⟩).2 = true ∧ (timingOf ⟨2, 5, 15, 1, 15, 15⟩).2 = false) ∧
    (0 ≤ 511 ∧ 511 ≤ 511) := by decide +kernel

/-- R195: the first of two writes of the port rates keeps its settings until its own reply has been sent. -/
theorem test_rate_writes :
    ((after (.writeConfigurationRecord console 0 (.portRates ⟨2, 0⟩ ⟨4, 0⟩ ⟨6, 0⟩)) part).ports.rateWrites =
      [⟨.writing, ⟨2, 0⟩, ⟨4, 0⟩, ⟨6, 0⟩⟩]) := by decide +kernel

def writing (p : Port) (w : Work) : State := onPort p (fun q => { q with inFlight := some ⟨5, 0x41, false, w⟩ }) part

theorem witness_Writes_Persist_And_Are_Answered :
    ((writing .console (.region .doneClamped true)).serving = true ∧
      ((writing .console (.region .doneClamped true)).port .console).inFlight =
        some ⟨5, 0x41, false, .region .doneClamped true⟩) ∧
    ((writing .console (.window 0 511 0x30)).port .console).inFlight = some ⟨5, 0x41, false, .window 0 511 0x30⟩ ∧
    (Tab.get none ({ writing .fire (.rearm 3) with nv := { part.nv with spentWrites := [(3, some false)] } } : State).nv.spentWrites 3 =
        some false ∧
      ((writing .fire (.rearm 3)).port .fire).inFlight = some ⟨5, 0x41, false, .rearm 3⟩) := by decide +kernel

theorem witness_Restart_Begins_The_Loop_Again :
    (Takes busy console Code.restart ∧ (busy.group 3).state.timed = true) ∧
    (Takes part console Code.restart ∧ (∀ g, g ≤ 3 → (part.group g).state.timed = false) ∧ part.configValid = true ∧
      part.config.pollList ≠ []) :=
  ⟨⟨takes_idle _ _ rfl rfl rfl rfl, by decide +kernel⟩, ⟨takes_console _ rfl, by decide +kernel⟩⟩

/-- Person 1000 on the way from zone 2 into zone 3 through door 1, open or released. -/
def underway (st : DoorState) : State :=
  let way : Slot := { part.slot 0 with state := .presentMoving, pendZone := some 3, pendDoor := some 1 }
  { part with roster := (0, way) :: part.roster.tail, doors := [(0, shutDoor), (1, { openFor 3 with state := st })] }

theorem underway_slot (st : DoorState) (i : Nat) : i = 0 ∨ (underway st).slot i = part.slot i := by
  by_cases h : i = 0
  · exact .inl h
  · exact .inr (by simp [underway, State.slot, part, Tab.get, h])

theorem underway_rosterSound (st : DoorState) : RosterSound (underway st) where
  table := (by decide : Tab.wf (fun _ => Slot.free) (underway .open).roster = true)
  slots i h := by
    rcases underway_slot st i with rfl | e
    · omega
    · rw [e]; exact part_rosterSound.slots i h
  fields i := by
    rcases underway_slot st i with rfl | e
    · exact ⟨rfl, rfl, rfl, rfl⟩
    · rw [e]; exact part_rosterSound.fields i
  zones i z h := by
    rcases underway_slot st i with rfl | e
    · have : z = 2 ∨ z = 3 := by
        rcases h with h | h
        · exact .inl (Option.some.inj h).symm
        · exact .inr (Option.some.inj h.1).symm
      rcases this with rfl | rfl
      · exact (by decide +kernel : 1 ≤ 2 ∧ 2 ≤ 15 ∧ tracked part 2 = true)
      · exact (by decide +kernel : 1 ≤ 3 ∧ 3 ≤ 15 ∧ tracked part 3 = true)
    · rw [e] at h; exact part_rosterSound.zones i z h
  holders i j hi hj h := by
    rcases underway_slot st i with rfl | e <;> rcases underway_slot st j with rfl | f
    · rfl
    · rw [f] at h hj; exact part_rosterSound.holders 0 j (by decide) hj h
    · rw [e] at h hi; exact part_rosterSound.holders i 0 hi (by decide) h
    · rw [e, f] at h; rw [e] at hi; rw [f] at hj; exact part_rosterSound.holders i j hi hj h
  capacity z h := by
    rcases records_tracked z with rfl | rfl | rfl | rfl | e
    · exact (by decide +kernel : committed (underway .open) 1 ≤ ((underway .open).config.zone 1).capacity)
    · exact (by decide +kernel : committed (underway .open) 2 ≤ ((underway .open).config.zone 2).capacity)
    · exact (by decide +kernel : committed (underway .open) 3 ≤ ((underway .open).config.zone 3).capacity)
    · exact (by decide +kernel : committed (underway .open) 15 ≤ ((underway .open).config.zone 15).capacity)
    · exact absurd (show (records.zone z).tracked = true from h) (by rw [e]; decide)

/-- A Restart with a reservation to commit or to cancel, and one of an INVALID part whose region matches or not. -/
theorem witness_Restart_Begins_The_Loop_Again_more :
    (∀ st ∈ [DoorState.released, .open], Takes (underway st) console Code.restart ∧
      (∀ g, g ≤ 3 → ((underway st).group g).state.timed = false) ∧ (underway st).configValid = true ∧
      RosterSound (underway st) ∧ ((underway st).slot 0).pendDoor = some 1 ∧ ((underway st).slot 0).pendZone = some 3 ∧
      ((underway st).door 1).state = st ∧
      (∀ i d, ((underway st).slot i).pendDoor = some d → d ≤ 31 ∧ d = 1)) ∧
    (∀ r ∈ [none, some records], let s := ({ part with configValid := false, nv := { part.nv with region := r } } : State);
      Takes s console Code.restart ∧ s.configValid = false ∧ (∀ g, g ≤ 3 → (s.group g).state.timed = false) ∧
        s.nv.region = r ∧ records.pollList ≠ []) := by
  refine ⟨fun st hst => ?_, fun r hr => ?_⟩
  · refine ⟨takes_idle _ _ rfl rfl rfl rfl, ?_, rfl, underway_rosterSound st, rfl, rfl, rfl, fun i d h => ?_⟩
    · exact (by decide +kernel : ∀ g, g ≤ 3 → (part.group g).state.timed = false)
    · rcases underway_slot st i with rfl | e
      · cases h; decide
      · rw [e] at h
        rcases part_slot i with rfl | rfl | rfl | f
        · cases h
        · cases h
        · cases h
        · rw [f] at h; cases h
  · exact ⟨takes_idle _ _ rfl rfl rfl rfl, rfl,
      (by decide +kernel : ∀ g, g ≤ 3 → (part.group g).state.timed = false), rfl, by decide⟩

theorem witness_Power_On_Starts_Afresh :
    (part.nv.region = some records ∧ ∀ r, part.nv.region = some r → r.pollList ≠ []) ∧
    (State.reset.nv.region = none ∧ ∀ r, State.reset.nv.region = some r → r.pollList ≠ []) :=
  ⟨⟨rfl, fun r h => by cases h; decide⟩, ⟨rfl, fun r h => nomatch h⟩⟩

/-- The part with slot 3 read with a single error, slot 4 marked, slot 5 holding the number of slot 3, slot 6 its pendant,
slot 7 left unreadable, and slot 511 with a double error. -/
def stored : State :=
  { part with store := { part.store with
      cells := [(3, ⟨false, .record card⟩), (4, ⟨true, .record { card with number := 2, pendant := 0 }⟩),
                (5, ⟨false, .record { card with pendant := 0 }⟩), (6, ⟨false, .record { card with number := 3 }⟩),
                (7, ⟨false, .unreadable⟩), (511, ⟨false, .record { card with number := 4, pendant := 5 }⟩)] } }

def loading : LoadReport := ⟨[(3, .single), (511, .double)]⟩

/-- A slot of each outcome of the load: spoiled, empty, read alone, and read with what a lower slot holds. -/
theorem witness_Power_On_Starts_Afresh_load :
    (∀ r, stored.nv.region = some r → r.pollList ≠ []) ∧
    (∀ i ∈ [4, 7, 511], loadSpoils stored.store.cells loading i = true) ∧
    (loadSpoils stored.store.cells loading 0 = false ∧ (stored.store.cell 0).contents = .empty) ∧
    (loadReads stored.store.cells loading 3 card ∧ ¬ loadRepeats stored.store.cells loading 3 card) ∧
    (loadReads stored.store.cells loading 5 { card with pendant := 0 } ∧
      loadRepeats stored.store.cells loading 5 { card with pendant := 0 }) ∧
    (loadReads stored.store.cells loading 6 { card with number := 3 } ∧
      loadRepeats stored.store.cells loading 6 { card with number := 3 }) := by
  have low : ∀ j, j < 3 → (Tab.get Cell.fresh stored.store.cells j).contents = .empty := by decide +kernel
  have three : loadReads stored.store.cells loading 3 card := ⟨by decide +kernel, by decide +kernel⟩
  refine ⟨fun r h => by cases h; decide, by decide +kernel, by decide +kernel, ⟨three, ?_⟩, ?_, ?_⟩
  · rintro ⟨j, k, h, ⟨-, e⟩, -⟩
    rw [low j h] at e; cases e
  · exact ⟨⟨by decide +kernel, by decide +kernel⟩, 3, card, by decide, three, by decide⟩
  · exact ⟨⟨by decide +kernel, by decide +kernel⟩, 3, card, by decide, three, by decide⟩

/-- R84: what the load makes of each of those slots, and the one error that it corrects. -/
theorem test_load_of_the_store :
    let u := (after (.powerOn loading) stored).store;
    [3, 4, 5, 6, 7, 511].map (fun i => ((u.entry i).cond, (u.entry i).number, (u.cell i).marker)) =
      [(.inUse, some 1000, false), (.damaged, none, true), (.damaged, some 1000, true), (.damaged, some 3, true),
       (.damaged, none, true), (.damaged, none, true)] ∧ u.corrected = 1 := by decide +kernel

theorem witness_Power_Loss_Leaves_The_Memory :
    (part.serving = true ∧ (part.port .console).inFlight = none ∧ part.store.op = none ∧
      Tab.get none part.nv.spentWrites 3 = none) ∧
    ((writing .console (.region .done false)).port .console).inFlight = some ⟨5, 0x41, false, .region .done false⟩ ∧
    ((writing .console (.window 0 511 0x30)).port .console).inFlight = some ⟨5, 0x41, false, .window 0 511 0x30⟩ ∧
    (let s := ({ part with nv := { part.nv with spentWrites := [(0, some true), (3, some false)] } } : State);
      s.serving = true ∧ Tab.get none s.nv.spentWrites 0 = some true ∧ Tab.get none s.nv.spentWrites 3 = some false ∧
        Tab.get none s.nv.spentWrites 2 = none) := by
  decide +kernel

/-- The store held by each operation: those that write, those that read a slot that can be read or a DAMAGED one, and the
lookups that meet a slot or none. -/
theorem witness_Power_Loss_Leaves_The_Memory_store :
    (∀ op ∈ [PortOp.read 3, .write 511 card, .erase 3, .modify 3 [.guarded true], .modify 3 [.number 16777214]],
      (holding op).serving = true ∧ (holding op).store.op = some (.port .console op)) ∧
    (let s := holding (.modify 3 [.guarded true]);
      (s.store.cell 3).contents = .record card ∧ applyChanges [.guarded true] card = some { card with guarded := true } ∧
        s.store.duplicate 3 { card with guarded := true } = false) ∧
    (∀ k new, ((holding (.modify 3 [.number 16777214])).store.cell 3).contents = .record k →
      applyChanges [.number 16777214] k = some new →
      (holding (.modify 3 [.number 16777214])).store.duplicate 3 new = true) ∧
    ((scrubbing.store.op = some (.scrub 7)) ∧ (scrubbing.store.entry 7).cond ≠ .damaged) ∧
    (let s := fun (op : StoreOp) => ({ part with store := { part.store with
        op := some op, index := part.store.index ++ [(510, ⟨.damaged, some 9, some 8, true⟩)] } } : State);
      (s (.scrub 510)).serving = true ∧ ((s (.scrub 510)).store.entry 510).cond = .damaged ∧
      (∀ n ∈ [(1000, some 3), (9, some 510), (5, none)],
        ((s (.lookup ⟨1, .a, n.1⟩ false)).store.index.find? fun e => e.2.number == some n.1).map (·.1) = n.2) ∧
      (∀ n ∈ [(77, some 3), (8, some 510), (5, none), (0, none)],
        ((s (.pendant ⟨n.1, 2⟩)).store.index.find? fun e => !(n.1 == 0) && e.2.pendant == some n.1).map (·.1) = n.2)) := by
  refine ⟨by decide +kernel, by decide +kernel, fun k new h e => ?_, by decide +kernel, by decide +kernel⟩
  have hk : k = card := by
    have : ((holding (.modify 3 [.number 16777214])).store.cell 3).contents = .record card := by decide +kernel
    rw [this] at h; cases h; rfl
  subst hk
  have : applyChanges [.number 16777214] card = some { card with number := 16777214 } := by decide +kernel
  rw [this] at e; cases e
  decide +kernel

/-- R83, R203: an interrupted window write leaves the region with the window or with none that matches, and an interrupted
erasure of slot 3 leaves it EMPTY or with a double error. -/
theorem test_power_loss_fates :
    ((after (.powerLoss ⟨.new, [], .old⟩) (writing .console (.window 3 9 0x30))).nv.region.map (·.windowHigh)) = some 9 ∧
    (after (.powerLoss ⟨.mixed, [], .old⟩) (writing .console (.window 3 9 0x30))).nv.region = none ∧
    ((after (.powerLoss ⟨.old, [], .new⟩) (holding (.erase 3))).store.cell 3).contents = .empty ∧
    ((after (.powerLoss ⟨.old, [], .mixed⟩) (holding (.erase 3))).store.cell 3).contents = .unreadable := by decide +kernel

end Sys2Proof.Tests
end

section
/-! The roster corrections (02): what a taken request of the Console Port's own codes comes to (R188 to R190), and the
checks of the three corrections (R28 to R31). -/

namespace Sys2Proof.Machine

/-! ### The transmitters keep a reply until it is sent (R190) -/

@[simp] theorem PortState.applyRate_sending (q : PortState) : q.applyRate.sending = q.sending := by
  unfold PortState.applyRate
  split
  · split <;> rfl
  · rfl

@[simp] theorem PortState.applyRate_replies (q : PortState) : q.applyRate.replies = q.replies := by
  unfold PortState.applyRate
  split
  · split <;> rfl
  · rfl

/-- A waiting reply is taken by the transmitter or goes on waiting: it is passed over for a frame being sent and for a
BUSY reply, and it comes before every frame behind it in the order of R190. -/
theorem PortState.takeNext_keeps_reply {q : PortState} {r : Reply} (waits : r ∈ q.replies) :
    q.takeNext.sending = some (.reply r) ∨ r ∈ q.takeNext.replies := by
  unfold PortState.takeNext
  split
  case h_1 => exact .inr waits
  case h_2 =>
    split
    case h_1 => exact .inr waits
    case h_2 =>
      split
      case h_1 oldest rest queue =>
        rw [queue, List.mem_cons] at waits
        exact waits.imp_left fun is_oldest => by rw [is_oldest]
      case h_2 none_waits =>
        rw [none_waits] at waits
        exact absurd waits List.not_mem_nil

theorem settlePorts_port (p : Port) (s : State) : (settlePorts s).port p = (s.port p).takeNext.applyRate := by
  cases p <;> rfl

/-- R189, R190: a request that ends at its taking has its reply at the transmitter when the step ends. -/
theorem replied_settlePorts_done (h : Head) (code : Nat) (r : Result) (results : List Val) (s : State) :
    Replied (settlePorts (done h code r results s)) h code r results := by
  have waits : (⟨h.tag, r, code, results⟩ : Reply) ∈ ((done h code r results s).port h.port).replies := by
    simp [done, answer]
  simpa [Replied, settlePorts_port] using PortState.takeNext_keeps_reply waits

/-! ### A request of the Console Port's own codes (R186, R188) -/

theorem port_eq_console_of_roleAllows {p : Port} {code : Nat} (role : roleAllows p code = true) (own : 0x30 ≤ code) :
    p = .console := by
  cases p
  case console => rfl
  case access => simp [roleAllows] at role; omega
  case fire => simp [roleAllows] at role; omega

/-- A request that passes the checks 1 to 4 of R188 is its own rule and the end of the step: on the Console Port no link
is restored before the frame is taken. -/
theorem request_of_takes {h : Head} {code : Nat} {s : State} (takes : Takes s h code) (own : 0x30 ≤ code)
    (run : State → State) : request h code run s = .next (settlePorts (run s)) := by
  obtain ⟨serving, hunt, free, role, sized⟩ := takes
  have console := port_eq_console_of_roleAllows role own
  have arrived : frameArrived h.port s = s := by rw [console]; rfl
  simp [request, served, onFrame, takeRequest, serving, hunt, arrived, free, role, sized]

/-- A request whose rule comes to its reply over a state that, under `kept`, is the state it was taken in: it is answered
so, and under `kept` nothing changes beyond the ports. -/
theorem request_answers {h : Head} {code : Nat} {s u : State} {run : State → State} {r : Result} {results : List Val}
    {kept : Prop} (takes : Takes s h code) (own : 0x30 ≤ code) (ends : run s = done h code r results u)
    (same : kept → u = s) :
    ∃ t, request h code run s = .next t ∧ Replied t h code r results ∧ (kept → { t with ports := s.ports } = s) := by
  refine ⟨_, request_of_takes takes own run, ?_, fun k => ?_⟩
  · rw [ends]
    exact replied_settlePorts_done h code r results u
  · rw [ends, same k]
    rfl

/-! ### The checks of the three corrections (R28 to R31) -/

/-- R29: the numbers and the zone are judged first, then the slot's state, the zone it is in, and the capacity. -/
theorem moveRosterEntry_answers {h : Head} {s : State} (slot zone : Nat) (takes : Takes s h Code.moveRosterEntry) :
    let r : Result :=
      if 127 < slot ∨ zone = 0 ∨ 15 < zone ∨ tracked s zone = false then .badParam
      else if (s.slot slot).state ≠ .present then .badState
      else if (s.slot slot).zone = some zone then .done
      else if (s.config.zone zone).capacity < committed s zone + 1 then .zoneFull
      else .done
    ∃ t, exec (.moveRosterEntry h slot zone) s = .next t ∧ Replied t h Code.moveRosterEntry r [] ∧
      (r ≠ .done ∨ (s.slot slot).zone = some zone → { t with ports := s.ports } = s) := by
  have own : 0x30 ≤ Code.moveRosterEntry := by decide
  have numbers : (slot ≥ Config.rosterSlots || zone = 0 || zone > 15 || !tracked s zone) = true ↔
      127 < slot ∨ zone = 0 ∨ 15 < zone ∨ tracked s zone = false := by
    simp [Config.rosterSlots, Nat.succ_le_iff, or_assoc]
  dsimp only
  split_ifs with bad absent there full
  · exact request_answers takes own (if_pos (numbers.mpr bad)) fun _ => rfl
  · exact request_answers takes own ((if_neg (mt numbers.mp bad)).trans (if_pos absent)) fun _ => rfl
  · exact request_answers takes own ((if_neg (mt numbers.mp bad)).trans ((if_neg absent).trans (if_pos there)))
      fun _ => rfl
  · exact request_answers takes own
      ((if_neg (mt numbers.mp bad)).trans ((if_neg absent).trans ((if_neg there).trans (if_pos full)))) fun _ => rfl
  · exact request_answers takes own
      ((if_neg (mt numbers.mp bad)).trans ((if_neg absent).trans ((if_neg there).trans (if_neg full))))
      fun kept => absurd kept (by simp [there])

/-- R30: the number is judged first, then the slot's state. -/
theorem removeRosterEntry_answers {h : Head} {s : State} (slot : Nat) (takes : Takes s h Code.removeRosterEntry) :
    let r : Result := if 127 < slot then .badParam else if (s.slot slot).state ≠ .present then .badState else .done
    ∃ t, exec (.removeRosterEntry h slot) s = .next t ∧ Replied t h Code.removeRosterEntry r [] ∧
      (r ≠ .done → { t with ports := s.ports } = s) := by
  have own : 0x30 ≤ Code.removeRosterEntry := by decide
  dsimp only
  split_ifs with bad absent
  · exact request_answers takes own (if_pos bad) fun _ => rfl
  · exact request_answers takes own ((if_neg bad).trans (if_pos absent)) fun _ => rfl
  · exact request_answers takes own ((if_neg bad).trans (if_neg absent)) fun kept => absurd rfl kept

/-- R31: the zone is judged, and nothing else. -/
theorem confirmZoneClear_answers {h : Head} {s : State} (zone : Nat) (takes : Takes s h Code.confirmZoneClear) :
    let r : Result := if zone = 0 ∨ 15 < zone ∨ tracked s zone = false then .badParam else .done
    ∃ t, exec (.confirmZoneClear h zone) s = .next t ∧ Replied t h Code.confirmZoneClear r [] ∧
      (r ≠ .done → { t with ports := s.ports } = s) := by
  have own : 0x30 ≤ Code.confirmZoneClear := by decide
  have number : (zone = 0 || zone > 15 || !tracked s zone) = true ↔ zone = 0 ∨ 15 < zone ∨ tracked s zone = false := by
    simp [or_assoc]
  dsimp only
  split_ifs with bad
  · exact request_answers takes own (if_pos (number.mpr bad)) fun _ => rfl
  · exact request_answers takes own (if_neg (mt number.mp bad)) fun kept => absurd rfl kept

/-- Settles O29: each correction comes to the reply of its own rule, and only a correction that is taken reaches a state
other than the one it was taken in. -/
theorem correctionsAreCheckedInOrder : Obligations.Corrections_Are_Checked_In_Order :=
  fun _ slot zone _ =>
    ⟨moveRosterEntry_answers slot zone, removeRosterEntry_answers slot, confirmZoneClear_answers zone⟩

end Sys2Proof.Machine
end

section
/-! The frames of a station port (10): the CRC of R201 as the remainder of a whole message, and the receiver over a frame
as the part sends it (R187, R200). -/

namespace Sys2Proof.Machine

/-! ### The CRC as a remainder (R201) -/

/-- The polynomial that a run of data bits spells, the first bit at its highest power of X. -/
noncomputable def bitsPoly (l : List Bool) : Polynomial (ZMod 2) :=
  l.foldl (fun m b => m * Polynomial.X + if b then 1 else 0) 0

theorem bitsPoly_snoc (l : List Bool) (b : Bool) :
    bitsPoly (l ++ [b]) = bitsPoly l * Polynomial.X + if b then 1 else 0 := by
  simp [bitsPoly]

/-- The bits of a byte, in the order in which they enter the CRC, spell the polynomial of the byte. -/
theorem bitsPoly_byteBits (b : Byte) : bitsPoly (byteBits b) = bitPoly b := by
  simp only [bitsPoly, byteBits, bitPoly, List.map, List.foldl, Finset.sum_range_succ, Finset.sum_range_zero, add_mul,
    ite_mul, zero_mul, one_mul]
  ring_nf

@[simp] theorem length_byteBits (b : Byte) : (byteBits b).length = 8 := rfl

/-- The polynomial of a message: its bytes in their order, eight powers of X to each. -/
noncomputable def messagePoly (bs : List Byte) : Polynomial (ZMod 2) :=
  bs.foldl (fun m b => m * Polynomial.X ^ 8 + bitPoly b) 0

theorem messagePoly_snoc (bs : List Byte) (b : Byte) :
    messagePoly (bs ++ [b]) = messagePoly bs * Polynomial.X ^ 8 + bitPoly b := by
  simp [messagePoly]

/-- R201: a run of data bits is as many steps of the division by the generator polynomial. -/
theorem foldl_crcBit_divides (r : Word16) (l : List Bool) :
    ∃ q, bitPoly r * Polynomial.X ^ l.length + bitsPoly l * Polynomial.X ^ 16 =
      q * (Polynomial.X ^ 16 + Polynomial.X ^ 12 + Polynomial.X ^ 5 + 1) + bitPoly (l.foldl crcBit r) := by
  induction l using List.reverseRecOn with
  | nil => exact ⟨0, by simp [bitsPoly]⟩
  | append_singleton l b ih =>
    obtain ⟨q, before⟩ := ih
    obtain ⟨q', step⟩ := crcBit_divides (l.foldl crcBit r) b
    have bit : (if b then 1 else 0) * Polynomial.X ^ 16 = if b then (Polynomial.X : Polynomial (ZMod 2)) ^ 16 else 0 := by
      simp
    refine ⟨q * Polynomial.X + q', ?_⟩
    rw [bitsPoly_snoc, List.length_append, List.length_singleton, List.foldl_append, List.foldl_cons, List.foldl_nil]
    linear_combination Polynomial.X * before + step + bit

/-- R201: the CRC is the remainder of the message, with the starting value of the register ahead of it, at the division
by the generator polynomial. -/
theorem crc_divides (bs : List Byte) :
    ∃ q, bitPoly 0xFFFF#16 * Polynomial.X ^ (8 * bs.length) + messagePoly bs * Polynomial.X ^ 16 =
      q * (Polynomial.X ^ 16 + Polynomial.X ^ 12 + Polynomial.X ^ 5 + 1) + bitPoly (crc bs) := by
  induction bs using List.reverseRecOn with
  | nil => exact ⟨0, by simp [messagePoly, crc]⟩
  | append_singleton bs b ih =>
    obtain ⟨q, before⟩ := ih
    obtain ⟨q', byte⟩ := foldl_crcBit_divides (crc bs) (byteBits b)
    rw [← crc_snoc, bitsPoly_byteBits, length_byteBits] at byte
    refine ⟨q * Polynomial.X ^ 8 + q', ?_⟩
    rw [messagePoly_snoc, List.length_append, List.length_singleton]
    linear_combination Polynomial.X ^ 8 * before + byte

/-! ### Frames as sent (R200, R201) -/

/-- R200: kind, tag and code stand in the body of every frame, so its length is one that a receiver takes (R187). -/
theorem Frame.three_le_length_body (f : Frame) : 3 ≤ f.body.length := by
  cases f <;> simp [Frame.body]

/-- R201: the two bytes behind the body are the CRC of the length byte and the body, high byte first. -/
theorem Frame.bytes_end_with_crc (f : Frame) :
    ∃ hi lo : Byte, f.bytes = 0xA5#8 :: BitVec.ofNat 8 f.body.length :: f.body ++ [hi, lo] ∧
      256 * hi.toNat + lo.toNat = (crc (BitVec.ofNat 8 f.body.length :: f.body)).toNat :=
  ⟨_, _, rfl, (wordBytes_eq_iff _ _ _).mp rfl⟩

/-! ### The receiver over a frame (R187) -/

theorem Receive.takeAll_cons (r : Receive) (b : Byte) (bs : List Byte) :
    r.takeAll (b :: bs) = (r.take b).1.takeAll bs := rfl

theorem Receive.takeAll_append (r : Receive) (bs cs : List Byte) : r.takeAll (bs ++ cs) = (r.takeAll bs).takeAll cs :=
  List.foldl_append

theorem Receive.completes_cons_eq_false {r : Receive} {b : Byte} {bs : List Byte} :
    r.completes (b :: bs) = false ↔ (r.take b).2 = none ∧ (r.take b).1.completes bs = false := by
  simp [Receive.completes]

theorem Receive.completes_append (r : Receive) (bs cs : List Byte) :
    r.completes (bs ++ cs) = (r.completes bs || (r.takeAll bs).completes cs) := by
  induction bs generalizing r with
  | nil => rfl
  | cons b bs ih => simp [Receive.completes, Receive.takeAll_cons, ih, Bool.or_assoc]

/-- Where bytes complete no frame, each of them is taken without one. -/
theorem Receive.take_eq_none_of_completes_eq_false {r : Receive} {k rest : List Byte} {b : Byte}
    (silent : r.completes (k ++ b :: rest) = false) : ((r.takeAll k).take b).2 = none := by
  rw [Receive.completes_append, Bool.or_eq_false_iff, Receive.completes_cons_eq_false] at silent
  obtain ⟨_, here, _⟩ := silent
  exact here

/-- R187: the bytes that are missing from the body bring the receiver to CHECK, and complete no frame. -/
theorem Receive.body_collects {len : Nat} {bs more : List Byte} (missing : more ≠ [])
    (fits : bs.length + more.length = len) :
    (Receive.body len bs).takeAll more = .check len (bs ++ more) [] ∧
      (Receive.body len bs).completes more = false := by
  induction more generalizing bs with
  | nil => exact absurd rfl missing
  | cons b more ih =>
    cases more with
    | nil =>
      have last : (Receive.body len bs).take b = (.check len (bs ++ [b]) [], none) := by
        simp [Receive.take, ← fits]
      exact ⟨congrArg Prod.fst last, Receive.completes_cons_eq_false.mpr ⟨congrArg Prod.snd last, rfl⟩⟩
    | cons c more =>
      have further : (Receive.body len bs).take b = (.body len (bs ++ [b]), none) := by
        simp [Receive.take, ← fits]
      obtain ⟨arrives, silent⟩ := ih (bs := bs ++ [b]) (by simp) (by simp at fits ⊢; omega)
      rw [Receive.takeAll_cons, Receive.completes_cons_eq_false, further]
      exact ⟨by rw [arrives, List.append_assoc, List.singleton_append], rfl, silent⟩

/-- R187: from HUNT, the start byte, a length in range and a body of that length bring the receiver to CHECK, and complete
no frame. -/
theorem Receive.hunt_collects (body : List Byte) (least : 3 ≤ body.length) (most : body.length ≤ 250) :
    Receive.hunt.takeAll (0xA5#8 :: BitVec.ofNat 8 body.length :: body) = .check body.length body [] ∧
      Receive.hunt.completes (0xA5#8 :: BitVec.ofNat 8 body.length :: body) = false := by
  have value : (BitVec.ofNat 8 body.length).toNat = body.length := by
    rw [BitVec.toNat_ofNat]; omega
  have length_taken : Receive.length.take (BitVec.ofNat 8 body.length) = (.body body.length [], none) := by
    simp only [Receive.take, value, if_pos (And.intro least most)]
  have missing : body ≠ [] := List.ne_nil_of_length_pos (by omega)
  obtain ⟨arrives, silent⟩ := Receive.body_collects (bs := []) missing (Nat.zero_add _)
  have start : Receive.hunt.take 0xA5#8 = (.length, none) := rfl
  rw [Receive.takeAll_cons, Receive.takeAll_cons, Receive.completes_cons_eq_false, Receive.completes_cons_eq_false, start,
    length_taken]
  exact ⟨arrives, rfl, rfl, silent⟩

/-- R187, R201: a receiver in HUNT finds a frame as sent valid at its last byte, and at no earlier one. -/
theorem Receive.hunt_accepts_frame (f : Frame) (most : f.body.length ≤ 250) :
    ∃ front last, f.bytes = front ++ [last] ∧ (Receive.hunt.takeAll front).take last = (.hunt, some f.body) ∧
      Receive.hunt.completes front = false := by
  obtain ⟨hi, lo, sent, spells⟩ := f.bytes_end_with_crc
  obtain ⟨arrives, silent⟩ := Receive.hunt_collects f.body f.three_le_length_body most
  refine ⟨0xA5#8 :: BitVec.ofNat 8 f.body.length :: f.body ++ [hi], lo, by simp [sent], ?_, ?_⟩
  · rw [Receive.takeAll_append, arrives]
    exact (Receive.check_judges _ _ hi lo).trans (by rw [if_pos spells])
  · rw [Receive.completes_append, arrives, silent]
    rfl

/-- Settles O20: the CRC is the remainder of the message, a frame as sent ends with it, a receiver in CHECK judges by it,
and so one in HUNT accepts the frame at its last byte. -/
theorem receiverAcceptsSentFrames : Obligations.Receiver_Accepts_Sent_Frames := by
  refine ⟨crc_divides, fun f _ => f.bytes_end_with_crc, Receive.check_judges, fun f most => ?_⟩
  obtain ⟨front, last, sent, valid, silent⟩ := Receive.hunt_accepts_frame f most
  refine ⟨front, last, sent, valid, fun k b rest parts => ?_⟩
  exact Receive.take_eq_none_of_completes_eq_false (parts ▸ silent)

end Sys2Proof.Machine
end
